-- ==== Sys2Proof/Word.lean ====
section
/-! DEFINITION. The words of the block: every value is unsigned and bit 0 is the least significant bit
(spec/00_scope.md R9). -/

namespace Sys2Proof

/-- The 32-bit word that carries a CAN identifier on `req_can_id` and `rsp_can_id`
(spec/10_state.md R20). -/
abbrev Word := BitVec 32

/-- One byte lane: PDU Format, PDU Specific or Source Address at its own width (spec/10_state.md R18). -/
abbrev Byte := BitVec 8

/-- The priority lane at its own width (spec/10_state.md R18). -/
abbrev Prio := BitVec 3

end Sys2Proof
end

