-- ==== Sys2Proof/Config.lean ====
section
/-! DEFINITION. The constants of the block (spec/00_scope.md R7), its two parameters (R8) and the
masks of the identifier word in place (spec/30_encoding.md R39). Nothing here is state. -/

namespace Sys2Proof.Config

/-- Width of priority (R7). -/
abbrev PRIO_W : Nat := 3
/-- Width of PDU Format (R7). -/
abbrev PF_W : Nat := 8
/-- Width of PDU Specific (R7). -/
abbrev PS_W : Nat := 8
/-- Width of Source Address (R7). -/
abbrev SA_W : Nat := 8

/-- Left shift of priority (R7). -/
abbrev PRIO_SH : Nat := 26
/-- Left shift of PDU Format (R7; spec/90_conflicts.md C1 settles 16). -/
abbrev PF_SH : Nat := 16
/-- Left shift of PDU Specific (R7). -/
abbrev PS_SH : Nat := 8
/-- Left shift of Source Address (R7). -/
abbrev SA_SH : Nat := 0

/-- Mask of priority before the shift (R39). -/
abbrev PRIO_MASK : Nat := 0x7
/-- Mask of each byte field before the shift (R39). -/
abbrev BYTE_MASK : Nat := 0xFF

/-- Width of the word that carries a CAN identifier (R7). -/
abbrev ID_W : Nat := 32
/-- Largest value `VCANID` accepts (R7, spec/41_validation.md R62). -/
abbrev ID_MAX : Nat := 0x1FFFFFFF
/-- Largest priority `VFIELDS` accepts (R7, spec/41_validation.md R60). -/
abbrev PRIO_MAX : Nat := 7
/-- Largest PDU Format, PDU Specific and Source Address `VFIELDS` accepts (R7). -/
abbrev BYTE_MAX : Nat := 255

/-- Priority in place (R39). -/
abbrev PRIO_LANE : Word := 0x1C000000#32
/-- PDU Format in place (R39). -/
abbrev PF_LANE : Word := 0x00FF0000#32
/-- PDU Specific in place (R39). -/
abbrev PS_LANE : Word := 0x0000FF00#32
/-- Source Address in place (R39). -/
abbrev SA_LANE : Word := 0x000000FF#32
/-- The unoccupied bits 25 and 24 (spec/30_encoding.md R40). -/
abbrev UNOCCUPIED : Word := 0x03000000#32
/-- The ceiling bits 31 to 29 (spec/30_encoding.md R41). -/
abbrev CEILING : Word := 0xE0000000#32
/-- The bits `encode` can set and `decode` reads (R7, spec/43_laws.md R72). -/
abbrev ENC_IMAGE_MASK : Word := 0x1CFFFFFF#32

/-- `FW`, the width of the four field inputs, at the default of the spec (R8, at least 9). The field
operands themselves are natural numbers, which R8 allows, so `FW` only says which of them can be
presented on the ports (`Instr.WellFormed`) and how wide a REQ record is (notes/assumptions/2.md). -/
def FW : Nat := 32

/-- `T_PD`, the propagation delay: positive and otherwise unspecified, the same for every operation and
every operand (R8, spec/70_reset_and_hazards.md R113). No body: nothing can be proved of its value, and
no rule depends on it (notes/assumptions/5.md). -/
opaque T_PD : PNat

end Sys2Proof.Config
end

