-- ==== Sys2Proof/Syntax.lean ====
section
/-! DEFINITION. The instructions: one constructor per row of spec/opcode_table.json. Six operations and
two reserved codes (spec/30_encoding.md R46), and the three data-format rows of the identifier word
(spec/30_encoding.md R38, spec/41_validation.md R62). -/

namespace Sys2Proof

/-- One transaction as the assembler syntax writes it (spec/30_encoding.md R54): the operation and the
operands it reads (R47). A field operand is an unsigned integer (spec/00_scope.md R8), an identifier a
32-bit word. The last three are the rows of kind `data_format`: an identifier word of that format
arriving on `req_can_id` (notes/assumptions/4.md). -/
inductive Instr where
  | enc (priority pf ps sa : Nat)
  | dec (canId : Word)
  | vfields (priority pf ps sa : Nat)
  | vcanid (canId : Word)
  | encv (priority pf ps sa : Nat)
  | decv (canId : Word)
  | reserved6
  | reserved7
  | canidEncodeImage (canId : Word)
  | canidDecodeAccepts (canId : Word)
  | canidValid (canId : Word)
deriving DecidableEq, Repr

end Sys2Proof
end

