-- ==== Sys2Proof/WellFormed.lean ====
section
/-! DEFINITION. Well-formed instructions: the operands can be presented on the ports, and an identifier
word named after a format of the table has that format's fixed bits. -/

namespace Sys2Proof

/-- The four field operands can be presented on field inputs `fw` bits wide (spec/10_state.md R17). -/
def fieldsFit (fw priority pf ps sa : Nat) : Bool :=
  decide (priority < 2 ^ fw) && decide (pf < 2 ^ fw) && decide (ps < 2 ^ fw) && decide (sa < 2 ^ fw)

/-- The pattern `000ppp00ffffffffssssssssaaaaaaaa` of the row `CANID.encode_image`
(spec/30_encoding.md R38, match 0 under mask 0xE3000000). -/
def isEncodeImage (c : Word) : Bool := c &&& 0xE3000000#32 == 0#32

/-- The pattern `000ppp--ffffffffssssssssaaaaaaaa` of the row `CANID.valid`
(spec/30_encoding.md R38, spec/41_validation.md R62, match 0 under mask 0xE0000000). -/
def isValidCanId (c : Word) : Bool := c &&& 0xE0000000#32 == 0#32

/-- The check of well-formedness at a field width `fw`. -/
def Instr.fits (fw : Nat) : Instr → Bool
  | .enc p f ps sa => fieldsFit fw p f ps sa
  | .dec _ => true
  | .vfields p f ps sa => fieldsFit fw p f ps sa
  | .vcanid _ => true
  | .encv p f ps sa => fieldsFit fw p f ps sa
  | .decv _ => true
  | .reserved6 => true
  | .reserved7 => true
  | .canidEncodeImage c => isEncodeImage c
  | .canidDecodeAccepts _ => true
  | .canidValid c => isValidCanId c

/-- The rows of kind `operation`: everything but the three data-format rows (spec/30_encoding.md R46). -/
def Instr.isOperation : Instr → Bool
  | .enc _ _ _ _ => true
  | .dec _ => true
  | .vfields _ _ _ _ => true
  | .vcanid _ => true
  | .encv _ _ _ _ => true
  | .decv _ => true
  | .reserved6 => true
  | .reserved7 => true
  | .canidEncodeImage _ => false
  | .canidDecodeAccepts _ => false
  | .canidValid _ => false

/-- Well-formed at the model's `FW`. -/
abbrev Instr.WellFormed (i : Instr) : Prop := i.fits Config.FW = true

end Sys2Proof
end

