-- ==== Sys2Proof/Decode.lean ====
section
/-! DEFINITION. What the host presents (requests and identifier words), the operation select, the
decoder, the encoder (the assembler of spec/30_encoding.md R54), the REQ record (R44) and the words of
spec/opcode_table.json. -/

namespace Sys2Proof

/-- The rows of the opcode map (spec/30_encoding.md R46). -/
inductive Op where
  | enc | dec | vfields | vcanid | encv | decv | reserved6 | reserved7
deriving DecidableEq, Repr

/-- The code of an operation on `req_op` (spec/30_encoding.md R46). -/
def Op.code : Op → BitVec 3
  | .enc => 0#3
  | .dec => 1#3
  | .vfields => 2#3
  | .vcanid => 3#3
  | .encv => 4#3
  | .decv => 5#3
  | .reserved6 => 6#3
  | .reserved7 => 7#3

/-- The row that a value of `req_op` selects (spec/30_encoding.md R46, R51). -/
def Op.ofCode (c : BitVec 3) : Op :=
  match c.toNat with
  | 0 => .enc
  | 1 => .dec
  | 2 => .vfields
  | 3 => .vcanid
  | 4 => .encv
  | 5 => .decv
  | 6 => .reserved6
  | _ => .reserved7

/-- A request: one set of values on the inputs `req_*` (spec/10_state.md R17). -/
structure Request where
  /-- `req_op` -/
  op : BitVec 3
  /-- `req_priority` -/
  priority : Nat
  /-- `req_pf` -/
  pf : Nat
  /-- `req_ps` -/
  ps : Nat
  /-- `req_sa` -/
  sa : Nat
  /-- `req_can_id` -/
  canId : Word
deriving DecidableEq, Repr

/-- All inputs zero. -/
def Request.zero : Request := ⟨0#3, 0, 0, 0, 0, 0#32⟩

/-- The request can be presented on field inputs `fw` bits wide (spec/10_state.md R17). -/
def Request.fits (fw : Nat) (r : Request) : Bool := fieldsFit fw r.priority r.pf r.ps r.sa

/-- What the host presents in one transaction: every request input (spec/10_state.md R16, R17), or an
identifier word on `req_can_id` while the other inputs stay as they are (notes/assumptions/4.md). -/
inductive Input where
  | request (r : Request)
  | identifier (c : Word)
deriving DecidableEq, Repr

/-- The input can be presented on field inputs `fw` bits wide. -/
def Input.fits (fw : Nat) : Input → Bool
  | .request r => r.fits fw
  | .identifier _ => true

/-! ### The decoder -/

/-- The decoder of requests: `req_op` alone selects the row, and the row's operands are read from their
ports (spec/30_encoding.md R51, R47). Total: every request has a row (R52). -/
def decodeRequest (r : Request) : Instr :=
  match Op.ofCode r.op with
  | .enc => .enc r.priority r.pf r.ps r.sa
  | .dec => .dec r.canId
  | .vfields => .vfields r.priority r.pf r.ps r.sa
  | .vcanid => .vcanid r.canId
  | .encv => .encv r.priority r.pf r.ps r.sa
  | .decv => .decv r.canId
  | .reserved6 => .reserved6
  | .reserved7 => .reserved7

/-- The narrowest of the three data-format rows that an identifier word matches
(spec/30_encoding.md R38: the rows' patterns lie inside one another; notes/assumptions/4.md). -/
def decodeIdentifier (c : Word) : Instr :=
  if isEncodeImage c then .canidEncodeImage c
  else if isValidCanId c then .canidValid c
  else .canidDecodeAccepts c

/-- The decoder. -/
def decode : Input → Instr
  | .request r => decodeRequest r
  | .identifier c => decodeIdentifier c

/-! ### The encoder -/

/-- The request in which `req_op` is the code of `o`, the four fields are on their ports and
`req_can_id`, which the operation does not read, is zero (spec/30_encoding.md R54). -/
def fieldRequest (o : Op) (p f ps sa : Nat) : Request := ⟨o.code, p, f, ps, sa, 0#32⟩

/-- The request in which `req_op` is the code of `o`, the identifier is on `req_can_id` and the field
inputs, which the operation does not read, are zero (spec/30_encoding.md R54). -/
def identifierRequest (o : Op) (c : Word) : Request := ⟨o.code, 0, 0, 0, 0, c⟩

/-- The encoder: the request a line of the assembler syntax assembles to (spec/30_encoding.md R54); for a
data-format row the identifier word itself. -/
def encode : Instr → Input
  | .enc p f ps sa => .request (fieldRequest .enc p f ps sa)
  | .dec c => .request (identifierRequest .dec c)
  | .vfields p f ps sa => .request (fieldRequest .vfields p f ps sa)
  | .vcanid c => .request (identifierRequest .vcanid c)
  | .encv p f ps sa => .request (fieldRequest .encv p f ps sa)
  | .decv c => .request (identifierRequest .decv c)
  | .reserved6 => .request (identifierRequest .reserved6 0#32)
  | .reserved7 => .request (identifierRequest .reserved7 0#32)
  | .canidEncodeImage c => .identifier c
  | .canidDecodeAccepts c => .identifier c
  | .canidValid c => .identifier c

/-! ### The REQ record -/

/-- Width of a REQ record: `3 + 4*FW + 32` (spec/30_encoding.md R44), 163 at `FW = 32`. -/
abbrev recordWidth (fw : Nat) : Nat := 3 + fw + fw + fw + fw + 32

/-- The request laid out as one record, most significant first: `req_op`, `req_priority`, `req_pf`,
`req_ps`, `req_sa`, `req_can_id` (spec/30_encoding.md R44). -/
def Request.toRecord (fw : Nat) (r : Request) : BitVec (recordWidth fw) :=
  r.op ++ BitVec.ofNat fw r.priority ++ BitVec.ofNat fw r.pf ++ BitVec.ofNat fw r.ps ++
    BitVec.ofNat fw r.sa ++ r.canId

/-- The request a REQ record lays out (spec/30_encoding.md R44). -/
def Request.ofRecord (fw : Nat) (n : BitVec (recordWidth fw)) : Request where
  op := n.extractLsb' (fw + fw + fw + fw + 32) 3
  priority := (n.extractLsb' (fw + fw + fw + 32) fw).toNat
  pf := (n.extractLsb' (fw + fw + 32) fw).toNat
  ps := (n.extractLsb' (fw + 32) fw).toNat
  sa := (n.extractLsb' 32 fw).toNat
  canId := n.extractLsb' 0 32

/-! ### The words of spec/opcode_table.json -/

/-- Why the bits of a table word are no instruction. -/
inductive Reject where
  /-- Fewer bits than `req_op` has (spec/30_encoding.md R46): there is no operation select. -/
  | noOperationSelect
deriving DecidableEq, Repr

/-- A request from the table's own numbering: the table matches an operation row on `req_op[2:0]`, its
bits 2 to 0, and the operand ports follow above it in the order of R44 (notes/assumptions/6.md). -/
def Request.ofTableBits (w : Nat) : Request where
  op := BitVec.ofNat 3 w
  priority := w / 2 ^ 3 % 2 ^ Config.FW
  pf := w / 2 ^ (3 + Config.FW) % 2 ^ Config.FW
  ps := w / 2 ^ (3 + 2 * Config.FW) % 2 ^ Config.FW
  sa := w / 2 ^ (3 + 3 * Config.FW) % 2 ^ Config.FW
  canId := BitVec.ofNat 32 (w / 2 ^ (3 + 4 * Config.FW))

/-- What the host presents when it presents a word of the table: a word of 32 bits is an identifier word
(the rows of format CANID), any other a request (the rows of format REQ). -/
def inputOfTableBits (nbits w : Nat) : Input :=
  if nbits = 32 then .identifier (BitVec.ofNat 32 w) else .request (.ofTableBits (w % 2 ^ nbits))

/-- The decoder on the bits of a table word; it rejects, by name, a word too short for `req_op`. -/
def decodeBits (nbits w : Nat) : Except Reject Instr :=
  if nbits < 3 then .error .noOperationSelect else .ok (decode (inputOfTableBits nbits w))

/-- The instruction the decoder reads from a word of spec/opcode_table.json. -/
def decodeTableWord (nbits w : Nat) : Option Instr :=
  match decodeBits nbits w with
  | .ok i => some i
  | .error _ => none

end Sys2Proof
end

