-- ==== Sys2Proof/Machine/State.lean ====
section
/-! DEFINITION. The records of the block and the state of the model. The block has no architectural
state (spec/10_state.md R13): State holds the wires the host drives and the run of a program around the
block, and nothing the block would keep. -/

namespace Sys2Proof.Machine

/-- The response: the values on the outputs `rsp_*` (spec/10_state.md R18). -/
structure Response where
  /-- `rsp_status` -/
  status : BitVec 2
  /-- `rsp_err_field` -/
  errField : BitVec 3
  /-- `rsp_err_lo` -/
  errLo : Word
  /-- `rsp_err_hi` -/
  errHi : Word
  /-- `rsp_can_id` -/
  canId : Word
  /-- `rsp_priority` -/
  priority : Prio
  /-- `rsp_pf` -/
  pf : Byte
  /-- `rsp_ps` -/
  ps : Byte
  /-- `rsp_sa` -/
  sa : Byte
deriving DecidableEq, Repr

/-- J1939Fields on the response side: the four fields at their own widths, so always a valid tuple
(spec/10_state.md R19). -/
structure J1939Fields where
  priority : Prio
  pf : Byte
  ps : Byte
  sa : Byte
deriving DecidableEq, Repr

/-- The names an `OutOfRange` error can carry (spec/30_encoding.md R50). -/
inductive ErrField where
  | priority | pduFormat | pduSpecific | sourceAddress | canId
deriving DecidableEq, Repr

/-- What `OutOfRange` carries: "the offending field name and its permitted bounds"
(spec/60_exceptions.md R86). -/
structure RangeError where
  field : ErrField
  lo : Word
  hi : Word
deriving DecidableEq, Repr

/-- The result of a validator (spec/00_scope.md R11, spec/41_validation.md R60, R62). -/
inductive Check where
  | pass
  | outOfRange (e : RangeError)
deriving DecidableEq, Repr

/-- The outcome of a transaction as a sum type, of which the ports are one encoding
(spec/10_state.md R22): on an error there is no result at all. -/
inductive Answer where
  /-- A validator passed; it produces no data (`VFIELDS`, `VCANID`). -/
  | passed
  /-- A packed identifier (`ENC`, `ENCV`). -/
  | packed (canId : Word)
  /-- The unpacked fields (`DEC`, `DECV`). -/
  | unpacked (f : J1939Fields)
  /-- `raise OutOfRange(field, lo, hi)` (spec/60_exceptions.md R87). -/
  | outOfRange (e : RangeError)
  /-- `raise BadOp()` (spec/60_exceptions.md R89). -/
  | badOp
deriving DecidableEq, Repr

/-- The block has no fault: "There is no fault, hang, stuck state or undefined result anywhere in the
block" (spec/60_exceptions.md R91). So there is no constructor, and that no step faults is true by the
type. -/
inductive Fault where
deriving DecidableEq, Repr

/-- Reasons to give an instruction no meaning. -/
inductive Refusal where
  /-- Raised by an arm of `exec` whose instruction has no meaning yet; safe. No arm raises it: every
  instruction has its meaning. -/
  | notModelled (mnemonic : String)
deriving DecidableEq, Repr

/-- The state of the model. The outputs are no field of it: they are `State.rsp`, the response to the
request on the inputs (spec/10_state.md R27, R21). -/
structure State where
  /-- The values on the request inputs now, driven by the host (spec/10_state.md R17). -/
  req : Request
  /-- What the host has still to present, the next input first (spec/10_state.md R15). -/
  program : List Input
  /-- The responses given so far, oldest first: the observable result of a run
  (spec/70_reset_and_hazards.md R115). -/
  results : List Response
deriving DecidableEq, Repr

/-- The model before its first event, the first transaction (spec/70_reset_and_hazards.md R106): no
response yet, no program (it comes from outside, notes/assumptions/3.md), and the inputs at zero
(notes/assumptions/1.md). -/
def State.reset : State := ⟨Request.zero, [], []⟩

end Sys2Proof.Machine
end

