-- ==== Sys2Proof/Machine/Flags.lean ====
section
/-! DEFINITION. The block has no flags (spec/10_state.md R24); its status outputs are coded here: status
codes (spec/30_encoding.md R49), field codes and bounds (R50). -/

namespace Sys2Proof.Machine

/-- `OK` on `rsp_status` (spec/30_encoding.md R49). -/
def statusOk : BitVec 2 := 0#2

/-- `OUT_OF_RANGE` on `rsp_status` (spec/30_encoding.md R49). -/
def statusOutOfRange : BitVec 2 := 1#2

/-- `BAD_OP` on `rsp_status` (spec/30_encoding.md R49). -/
def statusBadOp : BitVec 2 := 2#2

/-- `NONE` on `rsp_err_field` (spec/30_encoding.md R50). -/
def errFieldNone : BitVec 3 := 0#3

/-- The code of a field name on `rsp_err_field` (spec/30_encoding.md R50). -/
def ErrField.code : ErrField → BitVec 3
  | .priority => 1#3
  | .pduFormat => 2#3
  | .pduSpecific => 3#3
  | .sourceAddress => 4#3
  | .canId => 5#3

/-- The upper permitted bound of a field (spec/30_encoding.md R50). -/
def ErrField.upper : ErrField → Word
  | .priority => BitVec.ofNat 32 Config.PRIO_MAX
  | .pduFormat => BitVec.ofNat 32 Config.BYTE_MAX
  | .pduSpecific => BitVec.ofNat 32 Config.BYTE_MAX
  | .sourceAddress => BitVec.ofNat 32 Config.BYTE_MAX
  | .canId => BitVec.ofNat 32 Config.ID_MAX

/-- The error of a field with its permitted bounds; every lower bound is 0
(spec/41_validation.md R60, spec/30_encoding.md R50). -/
def ErrField.error (f : ErrField) : RangeError := ⟨f, 0#32, f.upper⟩

end Sys2Proof.Machine
end

