-- ==== Sys2Proof/Machine/Operands.lean ====
section
/-! DEFINITION. The operand forms: masking and placing a field operand (spec/30_encoding.md R42),
extracting a field from an identifier word (R43). -/

namespace Sys2Proof.Machine

/-- A field operand, masked to its width and shifted to its place in the word; nothing is
sign-extended and no set bit is shifted out (spec/30_encoding.md R42, spec/43_laws.md R68). -/
def placed (v mask shift : Nat) : Word := BitVec.ofNat 32 (v &&& mask) <<< shift

/-- Priority in its place: `(priority & 0x7) << 26` (spec/30_encoding.md R38). -/
def placedPriority (v : Nat) : Word := placed v Config.PRIO_MASK Config.PRIO_SH

/-- PDU Format in its place: `(pduFormat & 0xFF) << 16` (spec/30_encoding.md R38). -/
def placedPf (v : Nat) : Word := placed v Config.BYTE_MASK Config.PF_SH

/-- PDU Specific in its place: `(pduSpecific & 0xFF) << 8` (spec/30_encoding.md R38). -/
def placedPs (v : Nat) : Word := placed v Config.BYTE_MASK Config.PS_SH

/-- Source Address in its place: `sourceAddress & 0xFF` (spec/30_encoding.md R38). -/
def placedSa (v : Nat) : Word := placed v Config.BYTE_MASK Config.SA_SH

/-- A field of an identifier word: logical right shift, then the field's mask
(spec/30_encoding.md R43). -/
def extracted (c : Word) (shift mask : Nat) : Word := (c >>> shift) &&& BitVec.ofNat 32 mask

/-- `(canId >> 26) & 0x7` at its own width (spec/30_encoding.md R38). -/
def extractedPriority (c : Word) : Prio := (extracted c Config.PRIO_SH Config.PRIO_MASK).setWidth 3

/-- `(canId >> 16) & 0xFF` at its own width (spec/30_encoding.md R38). -/
def extractedPf (c : Word) : Byte := (extracted c Config.PF_SH Config.BYTE_MASK).setWidth 8

/-- `(canId >> 8) & 0xFF` at its own width (spec/30_encoding.md R38). -/
def extractedPs (c : Word) : Byte := (extracted c Config.PS_SH Config.BYTE_MASK).setWidth 8

/-- `canId & 0xFF` at its own width (spec/30_encoding.md R38). -/
def extractedSa (c : Word) : Byte := (extracted c Config.SA_SH Config.BYTE_MASK).setWidth 8

end Sys2Proof.Machine
end

