-- ==== Sys2Proof/Machine/Ops.lean ====
section
/-! DEFINITION. The shared operations: the response ports of an answer, raising an error
(spec/60_exceptions.md R87, R89), the RSP record (spec/30_encoding.md R45), driving the request inputs
(spec/10_state.md R16) and recording a response (R15). There is no return from an error (R95): nothing
is saved and nothing is restored (R94). -/

namespace Sys2Proof.Machine

/-- Every output zero: what an operation does not drive (spec/10_state.md R22). -/
def Response.filler : Response :=
  { status := statusOk, errField := errFieldNone, errLo := 0#32, errHi := 0#32, canId := 0#32,
    priority := 0#3, pf := 0#8, ps := 0#8, sa := 0#8 }

/-- `raise OutOfRange(field, lo, hi)`: the complete effect of a range error is this response
(spec/60_exceptions.md R87, R94). -/
def raiseOutOfRange (e : RangeError) : Response :=
  { Response.filler with
    status := statusOutOfRange, errField := e.field.code, errLo := e.lo, errHi := e.hi }

/-- `raise BadOp()` (spec/60_exceptions.md R89). -/
def raiseBadOp : Response := { Response.filler with status := statusBadOp }

/-- The outputs that carry an answer (spec/10_state.md R18, R22). -/
def Answer.response : Answer → Response
  | .passed => Response.filler
  | .packed c => { Response.filler with canId := c }
  | .unpacked f => { Response.filler with priority := f.priority, pf := f.pf, ps := f.ps, sa := f.sa }
  | .outOfRange e => raiseOutOfRange e
  | .badOp => raiseBadOp

/-- The gate of a validating operation: its answer when the check passes, the error otherwise; a
selection of output values, not a transfer of control (spec/42_gated.md R67). -/
def Check.gate (k : Check) (a : Answer) : Answer :=
  match k with
  | .pass => a
  | .outOfRange e => .outOfRange e

/-- The response laid out as one record, most significant first: `rsp_status`, `rsp_err_field`,
`rsp_err_lo`, `rsp_err_hi`, `rsp_can_id`, `rsp_priority`, `rsp_pf`, `rsp_ps`, `rsp_sa`
(spec/30_encoding.md R45). -/
def Response.record (r : Response) : BitVec 128 :=
  r.status ++ r.errField ++ r.errLo ++ r.errHi ++ r.canId ++ r.priority ++ r.pf ++ r.ps ++ r.sa

/-- The host drives `req_op` and the four field inputs; `req_can_id` stays (spec/10_state.md R16,
spec/30_encoding.md R47, notes/assumptions/7.md). -/
def State.driveFields (s : State) (o : Op) (p f ps sa : Nat) : State :=
  { s with req := { s.req with op := o.code, priority := p, pf := f, ps := ps, sa := sa } }

/-- The host drives `req_op` and `req_can_id`; the field inputs stay (spec/10_state.md R16,
spec/30_encoding.md R47, notes/assumptions/7.md). -/
def State.driveIdentifier (s : State) (o : Op) (c : Word) : State :=
  { s with req := { s.req with op := o.code, canId := c } }

/-- The host drives `req_op` only: a reserved code reads no operand (spec/30_encoding.md R47). -/
def State.driveOp (s : State) (o : Op) : State := { s with req := { s.req with op := o.code } }

/-- The host drives `req_can_id` only (spec/10_state.md R16, notes/assumptions/4.md). -/
def State.driveWord (s : State) (c : Word) : State := { s with req := { s.req with canId := c } }

/-- A transaction completes: its response joins the results of the run, and nothing else happens
(spec/10_state.md R15, spec/20_memory.md R31). -/
def State.respondWith (s : State) (r : Response) : Host.Outcome State Fault Refusal :=
  .next { s with results := s.results ++ [r] }

end Sys2Proof.Machine
end

