-- ==== Sys2Proof/Machine/Raw.lean ====
section
/-! DEFINITION. Family 1, the raw transforms `ENC` and `DEC` (spec/40_pack_unpack.md). -/

namespace Sys2Proof.Machine

/-- Function `encode(p, f, s, a)`, the packer: mask, shift and OR
(spec/40_pack_unpack.md R56). -/
def Codec.encode (p f s a : Nat) : Word :=
  placedPriority p ||| placedPf f ||| placedPs s ||| placedSa a

/-- Function `decode(c)`, the sub-block CAN_frame_header_demux: shift and mask
(spec/40_pack_unpack.md R58). -/
def Codec.decode (c : Word) : J1939Fields :=
  ⟨extractedPriority c, extractedPf c, extractedPs c, extractedSa c⟩

/-- `ENC`: packs, masking silently; never an error (spec/40_pack_unpack.md R57). -/
def answerEnc (p f s a : Nat) : Answer := .packed (Codec.encode p f s a)

/-- `DEC`: unpacks any word; never an error (spec/40_pack_unpack.md R59). -/
def answerDec (c : Word) : Answer := .unpacked (Codec.decode c)

/-- The transaction `ENC` (spec/40_pack_unpack.md R57). -/
def execEnc (p f ps sa : Nat) (s : State) : Host.Outcome State Fault Refusal :=
  (s.driveFields .enc p f ps sa).respondWith (answerEnc p f ps sa).response

/-- The transaction `DEC` (spec/40_pack_unpack.md R59). -/
def execDec (c : Word) (s : State) : Host.Outcome State Fault Refusal :=
  (s.driveIdentifier .dec c).respondWith (answerDec c).response

end Sys2Proof.Machine
end

