-- ==== Sys2Proof/Machine/Validation.lean ====
section
/-! DEFINITION. Family 2, the range checks `VFIELDS` and `VCANID` (spec/41_validation.md). -/

namespace Sys2Proof.Machine

/-- Function `validateFields(p, f, s, a)`: the first offender in the order priority, pduFormat,
pduSpecific, sourceAddress is reported (spec/41_validation.md R60). -/
def Codec.validateFields (p f s a : Nat) : Check :=
  if p > Config.PRIO_MAX then .outOfRange ErrField.priority.error
  else if f > Config.BYTE_MAX then .outOfRange ErrField.pduFormat.error
  else if s > Config.BYTE_MAX then .outOfRange ErrField.pduSpecific.error
  else if a > Config.BYTE_MAX then .outOfRange ErrField.sourceAddress.error
  else .pass

/-- Function `validateCanId(c)` (spec/41_validation.md R62). -/
def Codec.validateCanId (c : Word) : Check :=
  if c.toNat > Config.ID_MAX then .outOfRange ErrField.canId.error else .pass

/-- `VFIELDS`: the check alone, no data (spec/41_validation.md R61). -/
def answerVfields (p f s a : Nat) : Answer := (Codec.validateFields p f s a).gate .passed

/-- `VCANID`: the check alone, no data (spec/41_validation.md R63). -/
def answerVcanid (c : Word) : Answer := (Codec.validateCanId c).gate .passed

/-- The transaction `VFIELDS` (spec/41_validation.md R61). -/
def execVfields (p f ps sa : Nat) (s : State) : Host.Outcome State Fault Refusal :=
  (s.driveFields .vfields p f ps sa).respondWith (answerVfields p f ps sa).response

/-- The transaction `VCANID` (spec/41_validation.md R63). -/
def execVcanid (c : Word) (s : State) : Host.Outcome State Fault Refusal :=
  (s.driveIdentifier .vcanid c).respondWith (answerVcanid c).response

end Sys2Proof.Machine
end

