-- ==== Sys2Proof/Machine/Gated.lean ====
section
/-! DEFINITION. Family 3, the gated transforms `ENCV` and `DECV` (spec/42_gated.md). -/

namespace Sys2Proof.Machine

/-- `ENCV`: `encode`'s result only if `validateFields` passes (spec/42_gated.md R64). -/
def answerEncv (p f s a : Nat) : Answer :=
  (Codec.validateFields p f s a).gate (.packed (Codec.encode p f s a))

/-- `DECV`: `decode`'s result only if `validateCanId` passes (spec/42_gated.md R65). -/
def answerDecv (c : Word) : Answer := (Codec.validateCanId c).gate (.unpacked (Codec.decode c))

/-- The transaction `ENCV` (spec/42_gated.md R64). -/
def execEncv (p f ps sa : Nat) (s : State) : Host.Outcome State Fault Refusal :=
  (s.driveFields .encv p f ps sa).respondWith (answerEncv p f ps sa).response

/-- The transaction `DECV` (spec/42_gated.md R65). -/
def execDecv (c : Word) (s : State) : Host.Outcome State Fault Refusal :=
  (s.driveIdentifier .decv c).respondWith (answerDecv c).response

end Sys2Proof.Machine
end

