-- ==== Sys2Proof/Machine/Reserved.lean ====
section
/-! DEFINITION. The reserved operation codes 6 and 7 (spec/60_exceptions.md R89). -/

namespace Sys2Proof.Machine

/-- A request with operation code 6: `BAD_OP`, no operand read (spec/60_exceptions.md R89). -/
def answerReserved6 : Answer := .badOp

/-- A request with operation code 7: `BAD_OP`, no operand read (spec/60_exceptions.md R89). -/
def answerReserved7 : Answer := .badOp

/-- The transaction with operation code 6 (spec/60_exceptions.md R89). -/
def execReserved6 (s : State) : Host.Outcome State Fault Refusal :=
  (s.driveOp .reserved6).respondWith answerReserved6.response

/-- The transaction with operation code 7 (spec/60_exceptions.md R89). -/
def execReserved7 (s : State) : Host.Outcome State Fault Refusal :=
  (s.driveOp .reserved7).respondWith answerReserved7.response

end Sys2Proof.Machine
end

