-- ==== Sys2Proof/Machine/Respond.lean ====
section
/-! DEFINITION. The whole behaviour of the block: the total function `respond : Request -> Response`
(spec/10_state.md R13), and the outputs it drives at any moment (R27). -/

namespace Sys2Proof.Machine

/-- The answer to a request, operation by operation (spec/30_encoding.md R46); an input the operation
does not read is not read here either (R47). -/
def answer (r : Request) : Answer :=
  match Op.ofCode r.op with
  | .enc => answerEnc r.priority r.pf r.ps r.sa
  | .dec => answerDec r.canId
  | .vfields => answerVfields r.priority r.pf r.ps r.sa
  | .vcanid => answerVcanid r.canId
  | .encv => answerEncv r.priority r.pf r.ps r.sa
  | .decv => answerDecv r.canId
  | .reserved6 => answerReserved6
  | .reserved7 => answerReserved7

/-- `respond` (spec/10_state.md R13). -/
def respond (r : Request) : Response := (answer r).response

/-- The values on the outputs now: `respond` of the request on the inputs, and not stored anywhere
(spec/10_state.md R27, spec/70_reset_and_hazards.md R104). -/
def State.rsp (s : State) : Response := respond s.req

end Sys2Proof.Machine
end

