-- ==== Sys2Proof/Machine/Identifier.lean ====
section
/-! DEFINITION. The data-format rows of the table: an identifier word arrives on `req_can_id`
(spec/10_state.md R20), every other input staying as it is, and the outputs become `respond` of the
request that results (spec/70_reset_and_hazards.md R104; notes/assumptions/4.md). -/

namespace Sys2Proof.Machine

/-- The identifier word arrives and the block responds. -/
def State.receiveIdentifier (s : State) (c : Word) : Host.Outcome State Fault Refusal :=
  (s.driveWord c).respondWith (s.driveWord c).rsp

/-- A word of `CANID.encode_image`, such as a host feeding back an identifier that `ENC` or `ENCV` gave
(spec/10_state.md R15, spec/30_encoding.md R38). -/
def execCanidEncodeImage (c : Word) (s : State) : Host.Outcome State Fault Refusal :=
  s.receiveIdentifier c

/-- A word of `CANID.decode_accepts`: any word (spec/30_encoding.md R38). -/
def execCanidDecodeAccepts (c : Word) (s : State) : Host.Outcome State Fault Refusal :=
  s.receiveIdentifier c

/-- A word of `CANID.valid` (spec/30_encoding.md R38, spec/41_validation.md R62). -/
def execCanidValid (c : Word) (s : State) : Host.Outcome State Fault Refusal :=
  s.receiveIdentifier c

end Sys2Proof.Machine
end

