-- ==== Sys2Proof/Machine/Dispatch.lean ====
section
/-! DEFINITION. One transaction: one arm per constructor of `Instr`, one call of its meaning each. -/

namespace Sys2Proof.Machine

-- spec/30_encoding.md R46, R47; the last three arms are the data-format rows of the table.
def exec (i : Instr) (s : State) : Host.Outcome State Fault Refusal :=
  match i with
  | .enc p f ps sa => Sys2Proof.Machine.execEnc p f ps sa s
  | .dec c => Sys2Proof.Machine.execDec c s
  | .vfields p f ps sa => Sys2Proof.Machine.execVfields p f ps sa s
  | .vcanid c => Sys2Proof.Machine.execVcanid c s
  | .encv p f ps sa => Sys2Proof.Machine.execEncv p f ps sa s
  | .decv c => Sys2Proof.Machine.execDecv c s
  | .reserved6 => Sys2Proof.Machine.execReserved6 s
  | .reserved7 => Sys2Proof.Machine.execReserved7 s
  | .canidEncodeImage c => Sys2Proof.Machine.execCanidEncodeImage c s
  | .canidDecodeAccepts c => Sys2Proof.Machine.execCanidDecodeAccepts c s
  | .canidValid c => Sys2Proof.Machine.execCanidValid c s

end Sys2Proof.Machine
end

