-- ==== Sys2Proof/Machine/Present.lean ====
section
/-! DEFINITION. Presenting an input: the counterpart of fetching an instruction on a block that fetches
nothing (spec/20_memory.md R36, spec/10_state.md R15, R16). -/

namespace Sys2Proof.Machine

/-- The host puts its next input on the wires and has `rest` still to present: a request drives every
input (spec/10_state.md R17), an identifier word `req_can_id` alone (notes/assumptions/4.md). -/
def State.present (s : State) (x : Input) (rest : List Input) : State :=
  match x with
  | .request r => { s with req := r, program := rest }
  | .identifier c => { s with req := { s.req with canId := c }, program := rest }

/-- The host's next input is `x` in place of whatever it was (notes/assumptions/3.md). -/
def State.withNextInput (s : State) (x : Input) : State := { s with program := x :: s.program.tail }

end Sys2Proof.Machine
end

