-- ==== Sys2Proof/Machine/Step.lean ====
section
/-! DEFINITION. One step of the model: the host presents its next input and the block responds to it, one
transaction (spec/10_state.md R14, R15). -/

namespace Sys2Proof.Machine

/-- One step. With nothing left to present the run has ended and the step changes nothing: the block has
no halted state (spec/10_state.md R15), its outputs stay `respond` of the inputs
(spec/70_reset_and_hazards.md R104, R115; notes/assumptions/3.md). -/
def step (s : State) : Host.Outcome State Fault Refusal :=
  match s.program with
  | [] => .next s
  | x :: rest => exec (decode x) (s.present x rest)

/-- The state with a word of spec/opcode_table.json as the host's next input. -/
def State.withFetchWord (s : State) (nbits w : Nat) : State :=
  s.withNextInput (inputOfTableBits nbits w)

end Sys2Proof.Machine
end

