-- ==== Sys2Proof/Safety.lean ====
section
/-! DEFINITION. The terms claims use: which responses are legal (spec/10_state.md R18, R22), the
invariant of a run, and how a host reads a response (spec/70_reset_and_hazards.md R112). -/

namespace Sys2Proof.Machine

/-- All five data outputs are zero (spec/10_state.md R22). -/
def Response.noData (r : Response) : Bool :=
  r.canId == 0#32 && r.priority == 0#3 && r.pf == 0#8 && r.ps == 0#8 && r.sa == 0#8

/-- No error is reported: field `NONE` and both bounds zero (spec/30_encoding.md R50). -/
def Response.noError (r : Response) : Bool :=
  r.errField == 0#3 && r.errLo == 0#32 && r.errHi == 0#32

/-- An error field with the bounds that accompany it (spec/30_encoding.md R50). -/
def Response.rangeError (r : Response) : Bool :=
  r.errLo == 0#32 &&
    ((r.errField == 1#3 && r.errHi == 7#32) ||
     ((r.errField == 2#3 || r.errField == 3#3 || r.errField == 4#3) && r.errHi == 255#32) ||
     (r.errField == 5#3 && r.errHi == 0x1FFFFFFF#32))

/-- The values the outputs can take together (spec/10_state.md R18, R22, spec/30_encoding.md R49, R50):
`OK` without an error, an identifier with bits 31 to 29, 25 and 24 zero, and data of one direction only;
`OUT_OF_RANGE` with a field and its bounds and no data; `BAD_OP` with nothing else. -/
def Response.legal (r : Response) : Bool :=
  (r.status == 0#2 && r.noError && (r.canId &&& 0xE3000000#32 == 0#32) &&
    (r.canId == 0#32 || (r.priority == 0#3 && r.pf == 0#8 && r.ps == 0#8 && r.sa == 0#8))) ||
  (r.status == 1#2 && r.rangeError && r.noData) ||
  (r.status == 2#2 && r.noError && r.noData)

/-- The invariant of a run: every response given is legal, and what stands on the field inputs or is
still to be presented fits them (spec/10_state.md R17). -/
def State.inv (s : State) : Bool :=
  s.results.all Response.legal && s.program.all (Input.fits Config.FW) && s.req.fits Config.FW

/-- A run is safe in a state when the invariant holds there. -/
abbrev State.Safe (s : State) : Prop := s.inv = true

/-- The identifier a host may use: status first, data only when it is `OK`
(spec/70_reset_and_hazards.md R112). -/
def Response.usableIdentifier (r : Response) : Option Word :=
  if r.status = statusOk then some r.canId else none

/-- The fields a host may use: status first, data only when it is `OK`
(spec/70_reset_and_hazards.md R112). -/
def Response.usableFields (r : Response) : Option J1939Fields :=
  if r.status = statusOk then some ⟨r.priority, r.pf, r.ps, r.sa⟩ else none

end Sys2Proof.Machine
end

