-- ==== Sys2Proof/Certificates/Slice0/Obligations.lean ====
section
/-! DEFINITION. The statements for the provers, formalised from the numbered rules of spec/. Numerals are
written out as the spec has them, so a wrong constant of the model would make a statement false. -/

open Sys2Proof Sys2Proof.Machine

/-! ### The encoding -/

/-- R51: the 3-bit operation select picks the row of the opcode map, and no other input takes part. -/
def Obligations.OperationSelectAlonePicksTheRow : Prop :=
  ∀ (p f ps sa : Nat) (c : Word),
    decodeRequest ⟨0#3, p, f, ps, sa, c⟩ = .enc p f ps sa ∧
    decodeRequest ⟨1#3, p, f, ps, sa, c⟩ = .dec c ∧
    decodeRequest ⟨2#3, p, f, ps, sa, c⟩ = .vfields p f ps sa ∧
    decodeRequest ⟨3#3, p, f, ps, sa, c⟩ = .vcanid c ∧
    decodeRequest ⟨4#3, p, f, ps, sa, c⟩ = .encv p f ps sa ∧
    decodeRequest ⟨5#3, p, f, ps, sa, c⟩ = .decv c ∧
    decodeRequest ⟨6#3, p, f, ps, sa, c⟩ = .reserved6 ∧
    decodeRequest ⟨7#3, p, f, ps, sa, c⟩ = .reserved7

/-- Words written out from the spec: REQ records of 95_test_vectors.md P1, P4 and P5, and identifier
words. That an identifier word decodes to the narrowest data-format row is the model's choice
(notes/assumptions/4.md). -/
def Obligations.WrittenOutWordsDecode : Prop :=
  decodeRequest (.ofRecord 32 0x000000006000000EA00000000000000F900000000#163) = .enc 6 0xEA 0 0xF9 ∧
  decodeRequest (.ofRecord 32 0x10000000000000000000000000000000018EA00F9#163) = .dec 0x18EA00F9#32 ∧
  decodeRequest (.ofRecord 32 0x200000007000000FF000001000000010000000000#163) = .vfields 7 255 256 256 ∧
  decodeRequest (.ofRecord 32 0x3000000000000000000000000000000001FFFFFFF#163) = .vcanid 0x1FFFFFFF#32 ∧
  decodeRequest (.ofRecord 32 0x400000000000000000000012C0000012C00000000#163) = .encv 0 0 300 300 ∧
  decodeRequest (.ofRecord 32 0x5000000000000000000000000000000001BEA00F9#163) = .decv 0x1BEA00F9#32 ∧
  decodeRequest (.ofRecord 32 0x60000000000000000000000000000000000000000#163) = .reserved6 ∧
  decodeRequest (.ofRecord 32 0x700000008000001000000010000000100FFFFFFFF#163) = .reserved7 ∧
  decode (.identifier 0x18EA00F9#32) = .canidEncodeImage 0x18EA00F9#32 ∧
  decode (.identifier 0x1FFFFFFF#32) = .canidValid 0x1FFFFFFF#32 ∧
  decode (.identifier 0x20000000#32) = .canidDecodeAccepts 0x20000000#32

/-- Decode and encode agree at the level of bits: at every field width, every well-formed operation
assembles to a request that fits the ports, and decoding the REQ record of that request gives the
operation back with every operand (R44, R51, R54). -/
def Obligations.DecodingTheEncodedRecordGivesTheOperation : Prop :=
  ∀ (fw : Nat) (i : Instr), i.isOperation = true → i.fits fw = true →
    ∃ r : Request, encode i = .request r ∧ r.fits fw = true ∧
      decode (.request (.ofRecord fw (r.toRecord fw))) = i

/-- R44: the REQ record holds the whole request at the table's bit positions at `FW = 32`, and record and
request are one another's inverse at every field width. -/
def Obligations.RequestRecordHoldsTheRequest : Prop :=
  (∀ r : Request, r.fits 32 = true →
    (r.toRecord 32).extractLsb' 160 3 = r.op ∧
    ((r.toRecord 32).extractLsb' 128 32).toNat = r.priority ∧
    ((r.toRecord 32).extractLsb' 96 32).toNat = r.pf ∧
    ((r.toRecord 32).extractLsb' 64 32).toNat = r.ps ∧
    ((r.toRecord 32).extractLsb' 32 32).toNat = r.sa ∧
    (r.toRecord 32).extractLsb' 0 32 = r.canId) ∧
  (∀ (fw : Nat) (r : Request), r.fits fw = true → Request.ofRecord fw (r.toRecord fw) = r) ∧
  (∀ (fw : Nat) (n : BitVec (recordWidth fw)), (Request.ofRecord fw n).toRecord fw = n)

/-- R45: the RSP record is the nine outputs, most significant first, 128 bits. -/
def Obligations.ResponseRecordHoldsTheOutputs : Prop :=
  ∀ r : Response,
    r.record.extractLsb' 126 2 = r.status ∧ r.record.extractLsb' 123 3 = r.errField ∧
    r.record.extractLsb' 91 32 = r.errLo ∧ r.record.extractLsb' 59 32 = r.errHi ∧
    r.record.extractLsb' 27 32 = r.canId ∧ r.record.extractLsb' 24 3 = r.priority ∧
    r.record.extractLsb' 16 8 = r.pf ∧ r.record.extractLsb' 8 8 = r.ps ∧
    r.record.extractLsb' 0 8 = r.sa

/-- Every identifier word decodes, without losing a bit, to a well-formed data-format instruction, and to
the narrowest: `CANID.encode_image` when bits 31 to 29, 25 and 24 are zero, `CANID.valid` when the word
is a valid CanId with bit 25 or 24 set, `CANID.decode_accepts` above the ceiling. The choice of the
narrowest row is the model's (notes/assumptions/4.md). -/
def Obligations.IdentifierWordsDecodeToTheNarrowestFormat : Prop :=
  ∀ c : Word,
    encode (decode (.identifier c)) = .identifier c ∧
    (decode (.identifier c)).WellFormed ∧
    (decode (.identifier c) = .canidEncodeImage c ↔
      c.extractLsb' 29 3 = 0#3 ∧ c.extractLsb' 24 2 = 0#2) ∧
    (decode (.identifier c) = .canidValid c ↔
      c.toNat ≤ 0x1FFFFFFF ∧ c.extractLsb' 24 2 ≠ 0#2) ∧
    (decode (.identifier c) = .canidDecodeAccepts c ↔ 0x1FFFFFFF < c.toNat)

/-! ### What each operation does -/

/-- `ENC` answers `OK` with the packed identifier for any operands, whatever `req_can_id` holds; the
identifier is written as the sum of the four masked lanes. The response is R57's; that `req_can_id` stays
as it was is the model's choice (notes/assumptions/7.md). -/
def Obligations.EncAnswersTheMaskedLanes : Prop :=
  ∀ (p f ps sa : Nat) (s : State),
    exec (.enc p f ps sa) s = .next
      { req := ⟨0#3, p, f, ps, sa, s.req.canId⟩
        program := s.program
        results := s.results ++ [
          { status := 0#2, errField := 0#3, errLo := 0#32, errHi := 0#32,
            canId := BitVec.ofNat 32 (p % 8 * 2 ^ 26 + f % 256 * 2 ^ 16 + ps % 256 * 2 ^ 8 + sa % 256),
            priority := 0#3, pf := 0#8, ps := 0#8, sa := 0#8 }] }

/-- `DEC` answers `OK` with the four fields of any 32-bit word, whatever the field inputs hold; the fields
are written as bit ranges. The response is R59's; that the field inputs stay as they were is the model's
choice (notes/assumptions/7.md). -/
def Obligations.DecAnswersTheFieldBits : Prop :=
  ∀ (c : Word) (s : State),
    exec (.dec c) s = .next
      { req := ⟨1#3, s.req.priority, s.req.pf, s.req.ps, s.req.sa, c⟩
        program := s.program
        results := s.results ++ [
          { status := 0#2, errField := 0#3, errLo := 0#32, errHi := 0#32, canId := 0#32,
            priority := c.extractLsb' 26 3, pf := c.extractLsb' 16 8,
            ps := c.extractLsb' 8 8, sa := c.extractLsb' 0 8 }] }

/-- `VFIELDS` answers `OUT_OF_RANGE` with the first offender in the order priority, pduFormat,
pduSpecific, sourceAddress and its bounds, and `OK` when all are in range; no data output is driven. The
response is R61's; that `req_can_id` stays as it was is the model's choice (notes/assumptions/7.md). -/
def Obligations.VfieldsReportsTheFirstOffender : Prop :=
  ∀ (p f ps sa : Nat) (s : State), ∃ rsp : Response,
    exec (.vfields p f ps sa) s = .next
      { req := ⟨2#3, p, f, ps, sa, s.req.canId⟩
        program := s.program
        results := s.results ++ [rsp] } ∧
    rsp.errLo = 0#32 ∧ rsp.canId = 0#32 ∧ rsp.priority = 0#3 ∧ rsp.pf = 0#8 ∧ rsp.ps = 0#8 ∧
    rsp.sa = 0#8 ∧
    (7 < p → rsp.status = 1#2 ∧ rsp.errField = 1#3 ∧ rsp.errHi = 7#32) ∧
    (p ≤ 7 ∧ 255 < f → rsp.status = 1#2 ∧ rsp.errField = 2#3 ∧ rsp.errHi = 255#32) ∧
    (p ≤ 7 ∧ f ≤ 255 ∧ 255 < ps → rsp.status = 1#2 ∧ rsp.errField = 3#3 ∧ rsp.errHi = 255#32) ∧
    (p ≤ 7 ∧ f ≤ 255 ∧ ps ≤ 255 ∧ 255 < sa →
      rsp.status = 1#2 ∧ rsp.errField = 4#3 ∧ rsp.errHi = 255#32) ∧
    (p ≤ 7 ∧ f ≤ 255 ∧ ps ≤ 255 ∧ sa ≤ 255 →
      rsp.status = 0#2 ∧ rsp.errField = 0#3 ∧ rsp.errHi = 0#32)

/-- `VCANID` answers `OUT_OF_RANGE` for `canId` with the bounds 0 and 0x1FFFFFFF exactly when one of the
bits 31 to 29 is set, and `OK` otherwise; no data output is driven. The response is R63's; that the field
inputs stay as they were is the model's choice (notes/assumptions/7.md). -/
def Obligations.VcanidRejectsExactlyTheCeilingBits : Prop :=
  ∀ (c : Word) (s : State), ∃ rsp : Response,
    exec (.vcanid c) s = .next
      { req := ⟨3#3, s.req.priority, s.req.pf, s.req.ps, s.req.sa, c⟩
        program := s.program
        results := s.results ++ [rsp] } ∧
    rsp.errLo = 0#32 ∧ rsp.canId = 0#32 ∧ rsp.priority = 0#3 ∧ rsp.pf = 0#8 ∧ rsp.ps = 0#8 ∧
    rsp.sa = 0#8 ∧
    (c.extractLsb' 29 3 ≠ 0#3 → rsp.status = 1#2 ∧ rsp.errField = 5#3 ∧ rsp.errHi = 0x1FFFFFFF#32) ∧
    (c.extractLsb' 29 3 = 0#3 → rsp.status = 0#2 ∧ rsp.errField = 0#3 ∧ rsp.errHi = 0#32)

/-- `ENCV` answers as `VFIELDS` rejects, with `rsp_can_id` zero; when all fields are in range it answers
`OK` with the identifier, exactly the sum of the unmasked lanes. The response is R64's; that `req_can_id`
stays as it was is the model's choice (notes/assumptions/7.md). -/
def Obligations.EncvPacksOnlyWhatPasses : Prop :=
  ∀ (p f ps sa : Nat) (s : State), ∃ rsp : Response,
    exec (.encv p f ps sa) s = .next
      { req := ⟨4#3, p, f, ps, sa, s.req.canId⟩
        program := s.program
        results := s.results ++ [rsp] } ∧
    rsp.errLo = 0#32 ∧ rsp.priority = 0#3 ∧ rsp.pf = 0#8 ∧ rsp.ps = 0#8 ∧ rsp.sa = 0#8 ∧
    (7 < p → rsp.status = 1#2 ∧ rsp.errField = 1#3 ∧ rsp.errHi = 7#32 ∧ rsp.canId = 0#32) ∧
    (p ≤ 7 ∧ 255 < f →
      rsp.status = 1#2 ∧ rsp.errField = 2#3 ∧ rsp.errHi = 255#32 ∧ rsp.canId = 0#32) ∧
    (p ≤ 7 ∧ f ≤ 255 ∧ 255 < ps →
      rsp.status = 1#2 ∧ rsp.errField = 3#3 ∧ rsp.errHi = 255#32 ∧ rsp.canId = 0#32) ∧
    (p ≤ 7 ∧ f ≤ 255 ∧ ps ≤ 255 ∧ 255 < sa →
      rsp.status = 1#2 ∧ rsp.errField = 4#3 ∧ rsp.errHi = 255#32 ∧ rsp.canId = 0#32) ∧
    (p ≤ 7 ∧ f ≤ 255 ∧ ps ≤ 255 ∧ sa ≤ 255 →
      rsp.status = 0#2 ∧ rsp.errField = 0#3 ∧ rsp.errHi = 0#32 ∧
      rsp.canId.toNat = p * 2 ^ 26 + f * 2 ^ 16 + ps * 2 ^ 8 + sa)

/-- `DECV` answers as `VCANID` rejects, with the field outputs zero; a word with bits 31 to 29 zero is
unpacked, whatever bits 25 and 24 are. The response is R65's; that the field inputs stay as they were is
the model's choice (notes/assumptions/7.md). -/
def Obligations.DecvUnpacksOnlyWhatPasses : Prop :=
  ∀ (c : Word) (s : State), ∃ rsp : Response,
    exec (.decv c) s = .next
      { req := ⟨5#3, s.req.priority, s.req.pf, s.req.ps, s.req.sa, c⟩
        program := s.program
        results := s.results ++ [rsp] } ∧
    rsp.errLo = 0#32 ∧ rsp.canId = 0#32 ∧
    (c.extractLsb' 29 3 ≠ 0#3 →
      rsp.status = 1#2 ∧ rsp.errField = 5#3 ∧ rsp.errHi = 0x1FFFFFFF#32 ∧
      rsp.priority = 0#3 ∧ rsp.pf = 0#8 ∧ rsp.ps = 0#8 ∧ rsp.sa = 0#8) ∧
    (c.extractLsb' 29 3 = 0#3 →
      rsp.status = 0#2 ∧ rsp.errField = 0#3 ∧ rsp.errHi = 0#32 ∧
      rsp.priority = c.extractLsb' 26 3 ∧ rsp.pf = c.extractLsb' 16 8 ∧
      rsp.ps = c.extractLsb' 8 8 ∧ rsp.sa = c.extractLsb' 0 8)

/-- A reserved operation code answers `BAD_OP` with every other output zero: as an instruction, and as a
step on any request whose `req_op` is 6 or 7, whatever its operands. The response is R89's; that the
instruction alone leaves every input but `req_op` as it was is the model's choice
(notes/assumptions/7.md). -/
def Obligations.ReservedCodesAnswerBadOp : Prop :=
  (∀ s : State,
    exec .reserved6 s = .next
      { req := { s.req with op := 6#3 }
        program := s.program
        results := s.results ++ [⟨2#2, 0#3, 0#32, 0#32, 0#32, 0#3, 0#8, 0#8, 0#8⟩] }) ∧
  (∀ s : State,
    exec .reserved7 s = .next
      { req := { s.req with op := 7#3 }
        program := s.program
        results := s.results ++ [⟨2#2, 0#3, 0#32, 0#32, 0#32, 0#3, 0#8, 0#8, 0#8⟩] }) ∧
  (∀ (s : State) (r : Request) (rest : List Input),
    s.program = .request r :: rest → 6 ≤ r.op.toNat →
    step s = .next
      { req := r
        program := rest
        results := s.results ++ [⟨2#2, 0#3, 0#32, 0#32, 0#32, 0#3, 0#8, 0#8, 0#8⟩] })

/-- An arriving word of `CANID.decode_accepts`: the block responds to the request that results; under
`DEC` every word is accepted and unpacked. That a data-format row is the arrival of its word is the
model's choice (notes/assumptions/4.md). -/
def Obligations.AnyArrivingWordIsUnpackedUnderDec : Prop :=
  ∀ (c : Word) (s : State), ∃ rsp : Response,
    exec (.canidDecodeAccepts c) s = .next
      { req := { s.req with canId := c }, program := s.program, results := s.results ++ [rsp] } ∧
    rsp = respond { s.req with canId := c } ∧
    (s.req.op = 1#3 →
      rsp.status = 0#2 ∧ rsp.priority = c.extractLsb' 26 3 ∧ rsp.pf = c.extractLsb' 16 8 ∧
      rsp.ps = c.extractLsb' 8 8 ∧ rsp.sa = c.extractLsb' 0 8)

/-- An arriving word of `CANID.valid`: the block responds to the request that results; `VCANID` and
`DECV` pass exactly the words of this format. That a data-format row is the arrival of its word is the
model's choice (notes/assumptions/4.md). -/
def Obligations.ArrivingValidWordPassesBothGates : Prop :=
  ∀ (c : Word) (s : State), ∃ rsp : Response,
    exec (.canidValid c) s = .next
      { req := { s.req with canId := c }, program := s.program, results := s.results ++ [rsp] } ∧
    rsp = respond { s.req with canId := c } ∧
    ((s.req.op = 3#3 ∨ s.req.op = 5#3) →
      (rsp.status = 0#2 ↔ (Instr.canidValid c).WellFormed) ∧
      (rsp.status = 1#2 ↔ ¬ (Instr.canidValid c).WellFormed))

/-- An arriving word of `CANID.encode_image`, the packed identifier of a valid tuple fed back: the block
responds to the request that results; under `DEC` and under `DECV` it gives the tuple back. That a
data-format row is the arrival of its word is the model's choice (notes/assumptions/4.md). -/
def Obligations.ArrivingEncodeImageGivesTheTupleBack : Prop :=
  (∀ (c : Word) (s : State),
    exec (.canidEncodeImage c) s = .next
      { req := { s.req with canId := c }
        program := s.program
        results := s.results ++ [respond { s.req with canId := c }] }) ∧
  (∀ (p f ps sa : Nat) (r : Request), p ≤ 7 → f ≤ 255 → ps ≤ 255 → sa ≤ 255 →
    (r.op = 1#3 ∨ r.op = 5#3) →
    (Instr.canidEncodeImage (Codec.encode p f ps sa)).WellFormed ∧
    (respond { r with canId := Codec.encode p f ps sa }).status = 0#2 ∧
    (respond { r with canId := Codec.encode p f ps sa }).priority.toNat = p ∧
    (respond { r with canId := Codec.encode p f ps sa }).pf.toNat = f ∧
    (respond { r with canId := Codec.encode p f ps sa }).ps.toNat = ps ∧
    (respond { r with canId := Codec.encode p f ps sa }).sa.toNat = sa)

/-! ### The machine as a whole -/

/-- A step presents the host's next input and runs the instruction it decodes to. Two clauses are the
model's choice: an identifier word as an input of its own, the other inputs kept
(notes/assumptions/4.md), and that a step with nothing left to present changes nothing
(notes/assumptions/3.md). -/
def Obligations.StepRunsTheDecodedInput : Prop :=
  (∀ (s : State) (r : Request) (rest : List Input), s.program = .request r :: rest →
    step s = exec (decode (.request r)) { s with req := r, program := rest }) ∧
  (∀ (s : State) (c : Word) (rest : List Input), s.program = .identifier c :: rest →
    step s = exec (decode (.identifier c))
      { s with req := { s.req with canId := c }, program := rest }) ∧
  (∀ s : State, s.program = [] → step s = .next s)

/-- One transaction is the evaluation of `respond` on the request presented, and nothing else changes: no
result but the response, nothing kept (R13, R14). That an identifier word arriving alone is such a
transaction, the other inputs kept, is the model's choice (notes/assumptions/4.md). -/
def Obligations.StepIsRespondOfThePresentedRequest : Prop :=
  (∀ (s : State) (r : Request) (rest : List Input), s.program = .request r :: rest →
    step s = .next { req := r, program := rest, results := s.results ++ [respond r] }) ∧
  (∀ (s : State) (c : Word) (rest : List Input), s.program = .identifier c :: rest →
    step s = .next
      { req := { s.req with canId := c }
        program := rest
        results := s.results ++ [respond { s.req with canId := c }] })

/-- R15, R115: the result of a program of requests is the list of responses `respond(q[0]), ...,
respond(q[n-1])`; the run ends with the last, and further steps add nothing (the last clause is the
model's choice, notes/assumptions/3.md). -/
def Obligations.ProgramResultIsTheListOfResponses : Prop :=
  ∀ (rs : List Request) (s : State) (k : Nat), s.program = rs.map Input.request →
    Host.Core.run Sys2Proof.core (rs.length + k) s = .next
      ({ req := rs.getLastD s.req
         program := []
         results := s.results ++ rs.map respond } : State)

/-- R34: the response to a request depends on nothing else: whatever was presented before it, from
whatever state, its response is `respond` of it. That the inputs before it may be identifier words, each
with one response, is the model's choice (notes/assumptions/4.md). -/
def Obligations.ResponseDoesNotDependOnHistory : Prop :=
  ∀ (before : List Input) (r : Request) (s : State), s.program = before ++ [.request r] →
    ∃ t : State, Host.Core.run Sys2Proof.core (before.length + 1) s = .next t ∧
      t.results.length = s.results.length + before.length + 1 ∧
      t.results.getLast? = some (respond r)

/-- Every transaction completes, in every state, with one response (R91), the arrival of an identifier
word being one by the model's choice (notes/assumptions/4.md); every step completes, and that a step with
nothing left to present does, without a response, is the model's choice (notes/assumptions/3.md). -/
def Obligations.EveryTransactionCompletes : Prop :=
  (∀ (i : Instr) (s : State), ∃ (t : State) (rsp : Response),
    exec i s = .next t ∧ t.program = s.program ∧ t.results = s.results ++ [rsp]) ∧
  (∀ s : State, ∃ t : State, step s = .next t ∧ t.program = s.program.tail ∧
    t.results.length = s.results.length + (s.program.length - s.program.tail.length))

/-- The frame of the request inputs. That an operation drives only `req_op` and the inputs it reads is the
model's choice (notes/assumptions/7.md): the spec says only that the others are ignored. That a
data-format row drives only `req_can_id` is the model's choice too (notes/assumptions/4.md). What is left
to present is unchanged and the earlier results stay. -/
def Obligations.TransactionsDriveOnlyTheirInputs : Prop :=
  (∀ (i : Instr) (s t : State), exec i s = .next t →
    t.program = s.program ∧ s.results <+: t.results) ∧
  (∀ (p f ps sa : Nat) (i : Instr) (s t : State),
    i = .enc p f ps sa ∨ i = .vfields p f ps sa ∨ i = .encv p f ps sa → exec i s = .next t →
    t.req.canId = s.req.canId) ∧
  (∀ (c : Word) (i : Instr) (s t : State),
    i = .dec c ∨ i = .vcanid c ∨ i = .decv c → exec i s = .next t →
    t.req.priority = s.req.priority ∧ t.req.pf = s.req.pf ∧ t.req.ps = s.req.ps ∧
    t.req.sa = s.req.sa) ∧
  (∀ (i : Instr) (s t : State), i = .reserved6 ∨ i = .reserved7 → exec i s = .next t →
    t.req = { s.req with op := t.req.op }) ∧
  (∀ (c : Word) (i : Instr) (s t : State),
    i = .canidEncodeImage c ∨ i = .canidDecodeAccepts c ∨ i = .canidValid c → exec i s = .next t →
    t.req = { s.req with canId := c })

/-- R27, R104: after every transaction the outputs equal `respond` of the request on the inputs, and
that is the response the transaction gave. That a data-format row is such a transaction is the model's
choice (notes/assumptions/4.md). -/
def Obligations.OutputsFollowTheInputs : Prop :=
  ∀ (i : Instr) (s t : State), exec i s = .next t →
    t.rsp = respond t.req ∧ t.results = s.results ++ [t.rsp]

/-- R31: every transaction is idempotent: presented again, it gives the same response and leaves the
inputs as they are. What `exec` leaves on the inputs it does not drive, and that a data-format row is a
transaction, are the model's choices (notes/assumptions/7.md, notes/assumptions/4.md). -/
def Obligations.TransactionsAreIdempotent : Prop :=
  ∀ (i : Instr) (s t : State), exec i s = .next t →
    exec i t = .next { t with results := t.results ++ [t.rsp] }

/-- R17, R47: an input that an operation does not read has no effect on its response. -/
def Obligations.UnreadInputsHaveNoEffect : Prop :=
  ∀ r r' : Request, r.op = r'.op →
    (r.op = 0#3 ∨ r.op = 2#3 ∨ r.op = 4#3 →
      r.priority = r'.priority → r.pf = r'.pf → r.ps = r'.ps → r.sa = r'.sa →
      respond r = respond r') ∧
    (r.op = 1#3 ∨ r.op = 3#3 ∨ r.op = 5#3 → r.canId = r'.canId → respond r = respond r') ∧
    (r.op = 6#3 ∨ r.op = 7#3 → respond r = respond r')

/-- The outputs that can be non-zero, per operation; every other output is zero; a gated operation drives
either its data or the error (the third column of R47's table). -/
def Obligations.OutputsNotListedAreZero : Prop :=
  ∀ r : Request,
    (respond r).errLo = 0#32 ∧
    (r.op = 0#3 → (respond r).status = 0#2 ∧ (respond r).errField = 0#3 ∧ (respond r).errHi = 0#32) ∧
    (r.op = 1#3 → (respond r).status = 0#2 ∧ (respond r).errField = 0#3 ∧ (respond r).errHi = 0#32) ∧
    (r.op ≠ 0#3 → r.op ≠ 4#3 → (respond r).canId = 0#32) ∧
    (r.op ≠ 1#3 → r.op ≠ 5#3 →
      (respond r).priority = 0#3 ∧ (respond r).pf = 0#8 ∧ (respond r).ps = 0#8 ∧
      (respond r).sa = 0#8) ∧
    (r.op = 6#3 ∨ r.op = 7#3 → (respond r).errField = 0#3 ∧ (respond r).errHi = 0#32) ∧
    (r.op = 4#3 → (respond r).canId = 0#32 ∨ (respond r).status = 0#2) ∧
    (r.op = 5#3 →
      ((respond r).priority = 0#3 ∧ (respond r).pf = 0#8 ∧ (respond r).ps = 0#8 ∧
        (respond r).sa = 0#8) ∨
      (respond r).status = 0#2) ∧
    ((respond r).status = 0#2 → (respond r).errField = 0#3 ∧ (respond r).errHi = 0#32)

/-- The invariant holds at reset. The reset values of the inputs are the model's choice
(notes/assumptions/1.md). -/
def Obligations.ResetIsSafe : Prop :=
  State.reset.Safe ∧ State.reset.program = [] ∧ State.reset.results = [] ∧
    State.reset.rsp = respond State.reset.req

/-- The invariant is kept by every step: responses stay legal (R18, R22, R49, R50: status 3 and field
codes 6 and 7 never produced, lower bound always 0, bits 31 to 29, 25 and 24 of `rsp_can_id` zero,
no data with an error) and the inputs keep to their widths (R17). What a step does on an identifier word
and with nothing left to present is the model's choice (notes/assumptions/4.md, notes/assumptions/3.md). -/
def Obligations.EveryStepKeepsTheRunSafe : Prop :=
  ∀ s t : State, s.Safe → step s = .next t → t.Safe

/-! ### The laws of the codec -/

/-- R69: the packed word is four independent lanes: bit by bit, as a sum, as an exclusive OR, as the OR
of its one-lane values; and each lane of `decode` depends only on the bits under its own mask. -/
def Obligations.LanesAreIndependent : Prop :=
  (∀ (p f s a i : Nat), i < 32 →
    (Codec.encode p f s a).getLsbD i =
      (if i < 8 then a.testBit i else if i < 16 then s.testBit (i - 8)
       else if i < 24 then f.testBit (i - 16) else if i < 26 then false
       else if i < 29 then p.testBit (i - 26) else false)) ∧
  (∀ (p f s a : Nat), (Codec.encode p f s a).toNat =
    p % 8 * 2 ^ 26 + f % 256 * 2 ^ 16 + s % 256 * 2 ^ 8 + a % 256) ∧
  (∀ (p f s a : Nat), Codec.encode p f s a =
    Codec.encode p 0 0 0 ^^^ Codec.encode 0 f 0 0 ^^^ Codec.encode 0 0 s 0 ^^^ Codec.encode 0 0 0 a) ∧
  (∀ (p f s a : Nat), Codec.encode p f s a =
    Codec.encode p 0 0 0 ||| Codec.encode 0 f 0 0 ||| Codec.encode 0 0 s 0 ||| Codec.encode 0 0 0 a) ∧
  (∀ c d : Word,
    (c &&& 0x1C000000#32 = d &&& 0x1C000000#32 →
      (Codec.decode c).priority = (Codec.decode d).priority) ∧
    (c &&& 0x00FF0000#32 = d &&& 0x00FF0000#32 → (Codec.decode c).pf = (Codec.decode d).pf) ∧
    (c &&& 0x0000FF00#32 = d &&& 0x0000FF00#32 → (Codec.decode c).ps = (Codec.decode d).ps) ∧
    (c &&& 0x000000FF#32 = d &&& 0x000000FF#32 → (Codec.decode c).sa = (Codec.decode d).sa))

/-- R70: decoding what was encoded gives every valid tuple back, and the masked tuple in general. -/
def Obligations.DecodingTheEncodedTupleMasksIt : Prop :=
  (∀ (p f s a : Nat), p ≤ 7 → f ≤ 255 → s ≤ 255 → a ≤ 255 →
    (Codec.decode (Codec.encode p f s a)).priority.toNat = p ∧
    (Codec.decode (Codec.encode p f s a)).pf.toNat = f ∧
    (Codec.decode (Codec.encode p f s a)).ps.toNat = s ∧
    (Codec.decode (Codec.encode p f s a)).sa.toNat = a) ∧
  (∀ (p f s a : Nat),
    (Codec.decode (Codec.encode p f s a)).priority.toNat = p &&& 0x7 ∧
    (Codec.decode (Codec.encode p f s a)).pf.toNat = f &&& 0xFF ∧
    (Codec.decode (Codec.encode p f s a)).ps.toNat = s &&& 0xFF ∧
    (Codec.decode (Codec.encode p f s a)).sa.toNat = a &&& 0xFF)

/-- R71: encoding what was decoded clears the three ceiling bits and the two unoccupied bits, and gives
the word back exactly when all five were zero. -/
def Obligations.EncodingTheDecodedWordDropsFiveBits : Prop :=
  ∀ c : Word,
    Codec.encode (Codec.decode c).priority.toNat (Codec.decode c).pf.toNat
        (Codec.decode c).ps.toNat (Codec.decode c).sa.toNat = c &&& 0x1CFFFFFF#32 ∧
    (Codec.encode (Codec.decode c).priority.toNat (Codec.decode c).pf.toNat
        (Codec.decode c).ps.toNat (Codec.decode c).sa.toNat = c ↔ c &&& 0xE3000000#32 = 0#32)

/-- R72: the image of `encode` is exactly the words with bits 31 to 29, 25 and 24 zero; it has 2^27
elements, its smallest is 0 and its largest 0x1CFFFFFF; it is a proper subset of the valid CanIds; and
`rsp_can_id` never carries a word outside it. -/
def Obligations.ImageOfEncode : Prop :=
  (∀ w : Word, (∃ p f s a : Nat, Codec.encode p f s a = w) ↔ w &&& 0xE3000000#32 = 0#32) ∧
  (∀ w : Word, w &&& 0xE3000000#32 = 0#32 ↔ w = w &&& 0x1CFFFFFF#32) ∧
  Set.ncard {w : Word | ∃ p f s a : Nat, Codec.encode p f s a = w} = 2 ^ 27 ∧
  Codec.encode 0 0 0 0 = 0x00000000#32 ∧ Codec.encode 7 255 255 255 = 0x1CFFFFFF#32 ∧
  (∀ p f s a : Nat, (Codec.encode p f s a).toNat ≤ 0x1CFFFFFF) ∧
  (∃ w : Word, w.toNat ≤ 0x1FFFFFFF ∧ ∀ p f s a : Nat, Codec.encode p f s a ≠ w) ∧
  (∀ r : Request, (respond r).canId &&& 0xE3000000#32 = 0#32)

/-- R73: `encode` is injective on valid tuples and on all tuples up to masking; `decode` tells two words
apart exactly when they differ in an occupied bit, so the words decoding alike are, among valid CanIds,
the four that differ in bits 25 and 24, and among all words the thirty-two that differ in the five
ignored bits. -/
def Obligations.EncodeIsABijectionOntoItsImage : Prop :=
  (∀ p f s a p' f' s' a' : Nat,
    Codec.encode p f s a = Codec.encode p' f' s' a' ↔
      p % 8 = p' % 8 ∧ f % 256 = f' % 256 ∧ s % 256 = s' % 256 ∧ a % 256 = a' % 256) ∧
  (∀ w : Word, w &&& 0xE3000000#32 = 0#32 → ∃ p f s a : Nat,
    p ≤ 7 ∧ f ≤ 255 ∧ s ≤ 255 ∧ a ≤ 255 ∧ Codec.encode p f s a = w ∧
    Codec.decode w = ⟨BitVec.ofNat 3 p, BitVec.ofNat 8 f, BitVec.ofNat 8 s, BitVec.ofNat 8 a⟩) ∧
  (∀ c d : Word, c.toNat ≤ 0x1FFFFFFF →
    ((d.toNat ≤ 0x1FFFFFFF ∧ Codec.decode d = Codec.decode c) ↔
      ∃ u : BitVec 2, d = (0#3 ++ c.extractLsb' 26 3 ++ u ++ c.extractLsb' 0 24 : BitVec 32))) ∧
  (∀ c d : Word, Codec.decode d = Codec.decode c ↔
    ∃ (t : BitVec 3) (u : BitVec 2),
      d = (t ++ c.extractLsb' 26 3 ++ u ++ c.extractLsb' 0 24 : BitVec 32))

/-- R74: `encode` does not see what masking removes: multiples of 8 in the priority and of 256 in a byte
field. -/
def Obligations.EncodeIgnoresWhatMaskingRemoves : Prop :=
  (∀ p f s a : Nat, Codec.encode p f s a = Codec.encode (p &&& 0x7) (f &&& 0xFF) (s &&& 0xFF) (a &&& 0xFF)) ∧
  (∀ p f s a k : Nat,
    Codec.encode (p + 8 * k) f s a = Codec.encode p f s a ∧
    Codec.encode p (f + 256 * k) s a = Codec.encode p f s a ∧
    Codec.encode p f (s + 256 * k) a = Codec.encode p f s a ∧
    Codec.encode p f s (a + 256 * k) = Codec.encode p f s a)

/-- R76: results are always in range: the gate of the other direction passes every raw result, in the
functions and in the operations. -/
def Obligations.RawResultsPassTheOtherGate : Prop :=
  (∀ p f s a : Nat, Codec.validateCanId (Codec.encode p f s a) = .pass) ∧
  (∀ c : Word, Codec.validateFields (Codec.decode c).priority.toNat (Codec.decode c).pf.toNat
    (Codec.decode c).ps.toNat (Codec.decode c).sa.toNat = .pass) ∧
  (∀ r q : Request, r.op = 0#3 → q.op = 5#3 → q.canId = (respond r).canId →
    (respond q).status = 0#2) ∧
  (∀ r q : Request, r.op = 1#3 → q.op = 4#3 → q.priority = (respond r).priority.toNat →
    q.pf = (respond r).pf.toNat → q.ps = (respond r).ps.toNat → q.sa = (respond r).sa.toNat →
    (respond q).status = 0#2)

/-- R77: one pass through the other direction and back loses nothing further. -/
def Obligations.SecondRoundTripLosesNothing : Prop :=
  (∀ (p f s a : Nat) (d : J1939Fields), d = Codec.decode (Codec.encode p f s a) →
    Codec.encode d.priority.toNat d.pf.toNat d.ps.toNat d.sa.toNat = Codec.encode p f s a) ∧
  (∀ (c : Word) (d : J1939Fields), d = Codec.decode c →
    Codec.decode (Codec.encode d.priority.toNat d.pf.toNat d.ps.toNat d.sa.toNat) = d)

/-- R78: on valid tuples `encode` is strictly increasing for the lexicographic order. -/
def Obligations.EncodeIsStrictlyIncreasing : Prop :=
  ∀ p f s a p' f' s' a' : Nat,
    p ≤ 7 → f ≤ 255 → s ≤ 255 → a ≤ 255 → p' ≤ 7 → f' ≤ 255 → s' ≤ 255 → a' ≤ 255 →
    (p < p' ∨ (p = p' ∧ (f < f' ∨ (f = f' ∧ (s < s' ∨ (s = s' ∧ a < a')))))) →
    (Codec.encode p f s a).toNat < (Codec.encode p' f' s' a').toNat

/-- R81: the validators are mask tests; `validateFields` passes exactly what `encode` packs without loss,
`validateCanId` passes more than `decode` unpacks without loss: the words lost have bit 25 or 24 set. -/
def Obligations.ValidatorsAreMaskTests : Prop :=
  (∀ p f s a : Nat, Codec.validateFields p f s a = .pass ↔
    p &&& 0x7 = p ∧ f &&& 0xFF = f ∧ s &&& 0xFF = s ∧ a &&& 0xFF = a) ∧
  (∀ c : Word, (Codec.validateCanId c = .pass ↔ c &&& 0x1FFFFFFF#32 = c) ∧
    (c &&& 0x1FFFFFFF#32 = c ↔ c &&& 0xE0000000#32 = 0#32)) ∧
  (∀ p f s a : Nat, Codec.validateFields p f s a = .pass ↔
    ((Codec.decode (Codec.encode p f s a)).priority.toNat = p ∧
     (Codec.decode (Codec.encode p f s a)).pf.toNat = f ∧
     (Codec.decode (Codec.encode p f s a)).ps.toNat = s ∧
     (Codec.decode (Codec.encode p f s a)).sa.toNat = a)) ∧
  (∀ c : Word, Codec.validateCanId c = .pass →
    (Codec.encode (Codec.decode c).priority.toNat (Codec.decode c).pf.toNat
      (Codec.decode c).ps.toNat (Codec.decode c).sa.toNat = c ↔ c &&& 0x03000000#32 = 0#32))

/-! ### How the operations relate, and what a host must know -/

/-- R66: on operands that pass, a gated operation and its raw counterpart give the same data; a gated
operation is the validator, then, if it answered `OK`, the raw operation on the same inputs; on operands
that fail, the raw operation answers `OK` with the masked result and the gated one `OUT_OF_RANGE` with
zeros. -/
def Obligations.GatedIsValidatorThenRaw : Prop :=
  (∀ r : Request, Codec.validateFields r.priority r.pf r.ps r.sa = .pass →
    (respond { r with op := 2#3 }).status = 0#2 ∧
    (respond { r with op := 4#3 }).canId = (respond { r with op := 0#3 }).canId) ∧
  (∀ r : Request, Codec.validateCanId r.canId = .pass →
    (respond { r with op := 3#3 }).status = 0#2 ∧
    (respond { r with op := 5#3 }).priority = (respond { r with op := 1#3 }).priority ∧
    (respond { r with op := 5#3 }).pf = (respond { r with op := 1#3 }).pf ∧
    (respond { r with op := 5#3 }).ps = (respond { r with op := 1#3 }).ps ∧
    (respond { r with op := 5#3 }).sa = (respond { r with op := 1#3 }).sa) ∧
  (∀ r : Request, respond { r with op := 4#3 } =
    if (respond { r with op := 2#3 }).status = 0#2 then respond { r with op := 0#3 }
    else respond { r with op := 2#3 }) ∧
  (∀ r : Request, respond { r with op := 5#3 } =
    if (respond { r with op := 3#3 }).status = 0#2 then respond { r with op := 1#3 }
    else respond { r with op := 3#3 }) ∧
  (∀ r : Request, Codec.validateFields r.priority r.pf r.ps r.sa ≠ .pass →
    (respond { r with op := 0#3 }).status = 0#2 ∧
    (respond { r with op := 0#3 }).canId =
      Codec.encode (r.priority &&& 0x7) (r.pf &&& 0xFF) (r.ps &&& 0xFF) (r.sa &&& 0xFF) ∧
    (respond { r with op := 2#3 }).status = 1#2 ∧ (respond { r with op := 4#3 }).status = 1#2 ∧
    (respond { r with op := 4#3 }).noData = true) ∧
  (∀ r : Request, Codec.validateCanId r.canId ≠ .pass →
    (respond { r with op := 1#3 }).status = 0#2 ∧
    (respond { r with op := 1#3 }).priority = (Codec.decode r.canId).priority ∧
    (respond { r with op := 1#3 }).pf = (Codec.decode r.canId).pf ∧
    (respond { r with op := 1#3 }).ps = (Codec.decode r.canId).ps ∧
    (respond { r with op := 1#3 }).sa = (Codec.decode r.canId).sa ∧
    (respond { r with op := 3#3 }).status = 1#2 ∧ (respond { r with op := 5#3 }).status = 1#2 ∧
    (respond { r with op := 5#3 }).noData = true)

/-- R111: a host that decodes a valid identifier, with `DEC` or `DECV`, and encodes the fields, with `ENC`
or `ENCV`, obtains `OK` twice and the word with bits 25 and 24 cleared, which differs from it exactly when
one of them was set: no operation signals the loss. -/
def Obligations.ReencodingLosesTheUnoccupiedBits : Prop :=
  ∀ r q : Request, r.canId.toNat ≤ 0x1FFFFFFF → (r.op = 1#3 ∨ r.op = 5#3) →
    (q.op = 0#3 ∨ q.op = 4#3) → q.priority = (respond r).priority.toNat →
    q.pf = (respond r).pf.toNat → q.ps = (respond r).ps.toNat → q.sa = (respond r).sa.toNat →
    (respond r).status = 0#2 ∧ (respond q).status = 0#2 ∧
    (respond q).canId = r.canId &&& 0x1CFFFFFF#32 ∧
    ((respond q).canId ≠ r.canId ↔ r.canId &&& 0x03000000#32 ≠ 0#32)

/-- R109, R110: the raw operations answer `OK` to every operand, and what they lose is lost silently:
`ENC` loses something exactly when `VFIELDS` would have rejected. -/
def Obligations.RawOperationsTruncateSilently : Prop :=
  (∀ r : Request, r.op = 0#3 → (respond r).status = 0#2 ∧
    ((respond { r with op := 2#3 }).status = 1#2 ↔
      (Codec.decode (respond r).canId).priority.toNat ≠ r.priority ∨
      (Codec.decode (respond r).canId).pf.toNat ≠ r.pf ∨
      (Codec.decode (respond r).canId).ps.toNat ≠ r.ps ∨
      (Codec.decode (respond r).canId).sa.toNat ≠ r.sa)) ∧
  (∀ r : Request, r.op = 1#3 → (respond r).status = 0#2 ∧
    respond r = respond { r with canId := r.canId &&& 0x1CFFFFFF#32 })

/-- R112: a host that reads the status first and the data only when it is `OK` gets from a gated
operation the result of the transform exactly when the validator passes, and nothing otherwise. -/
def Obligations.StatusFirstReadsOnlyResults : Prop :=
  (∀ r : Request, r.op = 4#3 → (respond r).usableIdentifier =
    if r.priority ≤ 7 ∧ r.pf ≤ 255 ∧ r.ps ≤ 255 ∧ r.sa ≤ 255
    then some (Codec.encode r.priority r.pf r.ps r.sa) else none) ∧
  (∀ r : Request, r.op = 5#3 → (respond r).usableFields =
    if r.canId.toNat ≤ 0x1FFFFFFF then some (Codec.decode r.canId) else none)

/-- R93: one transaction reports at most one error, `BadOp` before a field error and the first offending
field before a later one; field and identifier errors cannot meet. -/
def Obligations.AtMostOneErrorInPriorityOrder : Prop :=
  ∀ r : Request,
    ((respond r).status = 2#2 ↔ 6 ≤ r.op.toNat) ∧
    ((respond r).status = 1#2 ↔ (respond r).errField ≠ 0#3) ∧
    ((respond r).errField = 1#3 ↔ (r.op = 2#3 ∨ r.op = 4#3) ∧ 7 < r.priority) ∧
    ((respond r).errField = 2#3 ↔ (r.op = 2#3 ∨ r.op = 4#3) ∧ r.priority ≤ 7 ∧ 255 < r.pf) ∧
    ((respond r).errField = 3#3 ↔
      (r.op = 2#3 ∨ r.op = 4#3) ∧ r.priority ≤ 7 ∧ r.pf ≤ 255 ∧ 255 < r.ps) ∧
    ((respond r).errField = 4#3 ↔
      (r.op = 2#3 ∨ r.op = 4#3) ∧ r.priority ≤ 7 ∧ r.pf ≤ 255 ∧ r.ps ≤ 255 ∧ 255 < r.sa) ∧
    ((respond r).errField = 5#3 ↔ (r.op = 3#3 ∨ r.op = 5#3) ∧ 0x1FFFFFFF < r.canId.toNat)
end

