-- ==== Sys2Proof/Laws/State.lean ====
section
/-! SUPPORT. One lemma per field per update of the state, and what recording a response and presenting
an input do, so that no proof unfolds a record update. -/

namespace Sys2Proof.Machine

section Drive
variable (s : State) (o : Op) (p f ps sa : Nat) (c : Word)

@[simp] theorem driveFields_op : (s.driveFields o p f ps sa).req.op = o.code := rfl
@[simp] theorem driveFields_priority : (s.driveFields o p f ps sa).req.priority = p := rfl
@[simp] theorem driveFields_pf : (s.driveFields o p f ps sa).req.pf = f := rfl
@[simp] theorem driveFields_ps : (s.driveFields o p f ps sa).req.ps = ps := rfl
@[simp] theorem driveFields_sa : (s.driveFields o p f ps sa).req.sa = sa := rfl
@[simp] theorem driveFields_canId : (s.driveFields o p f ps sa).req.canId = s.req.canId := rfl
@[simp] theorem driveFields_program : (s.driveFields o p f ps sa).program = s.program := rfl
@[simp] theorem driveFields_results : (s.driveFields o p f ps sa).results = s.results := rfl

@[simp] theorem driveIdentifier_op : (s.driveIdentifier o c).req.op = o.code := rfl
@[simp] theorem driveIdentifier_priority : (s.driveIdentifier o c).req.priority = s.req.priority := rfl
@[simp] theorem driveIdentifier_pf : (s.driveIdentifier o c).req.pf = s.req.pf := rfl
@[simp] theorem driveIdentifier_ps : (s.driveIdentifier o c).req.ps = s.req.ps := rfl
@[simp] theorem driveIdentifier_sa : (s.driveIdentifier o c).req.sa = s.req.sa := rfl
@[simp] theorem driveIdentifier_canId : (s.driveIdentifier o c).req.canId = c := rfl
@[simp] theorem driveIdentifier_program : (s.driveIdentifier o c).program = s.program := rfl
@[simp] theorem driveIdentifier_results : (s.driveIdentifier o c).results = s.results := rfl

@[simp] theorem driveOp_op : (s.driveOp o).req.op = o.code := rfl
@[simp] theorem driveOp_priority : (s.driveOp o).req.priority = s.req.priority := rfl
@[simp] theorem driveOp_pf : (s.driveOp o).req.pf = s.req.pf := rfl
@[simp] theorem driveOp_ps : (s.driveOp o).req.ps = s.req.ps := rfl
@[simp] theorem driveOp_sa : (s.driveOp o).req.sa = s.req.sa := rfl
@[simp] theorem driveOp_canId : (s.driveOp o).req.canId = s.req.canId := rfl
@[simp] theorem driveOp_program : (s.driveOp o).program = s.program := rfl
@[simp] theorem driveOp_results : (s.driveOp o).results = s.results := rfl

@[simp] theorem driveWord_op : (s.driveWord c).req.op = s.req.op := rfl
@[simp] theorem driveWord_priority : (s.driveWord c).req.priority = s.req.priority := rfl
@[simp] theorem driveWord_pf : (s.driveWord c).req.pf = s.req.pf := rfl
@[simp] theorem driveWord_ps : (s.driveWord c).req.ps = s.req.ps := rfl
@[simp] theorem driveWord_sa : (s.driveWord c).req.sa = s.req.sa := rfl
@[simp] theorem driveWord_canId : (s.driveWord c).req.canId = c := rfl
@[simp] theorem driveWord_program : (s.driveWord c).program = s.program := rfl
@[simp] theorem driveWord_results : (s.driveWord c).results = s.results := rfl

end Drive

section Present
variable (s : State) (r : Request) (c : Word) (x : Input) (rest : List Input)

@[simp] theorem present_program : (s.present x rest).program = rest := by cases x <;> rfl
@[simp] theorem present_results : (s.present x rest).results = s.results := by cases x <;> rfl
@[simp] theorem present_request_req : (s.present (.request r) rest).req = r := rfl
@[simp] theorem present_identifier_req :
    (s.present (.identifier c) rest).req = { s.req with canId := c } := rfl

@[simp] theorem withNextInput_program :
    (s.withNextInput x).program = x :: s.program.tail := rfl
@[simp] theorem withNextInput_req : (s.withNextInput x).req = s.req := rfl
@[simp] theorem withNextInput_results : (s.withNextInput x).results = s.results := rfl

end Present

/-- Everything recording a response does. -/
theorem respondWith_next_iff {s t : State} {r : Response} :
    s.respondWith r = .next t ↔ t = { s with results := s.results ++ [r] } := by
  simp [State.respondWith, eq_comm]

@[simp] theorem respondWith_eq (s : State) (r : Response) :
    s.respondWith r = .next { s with results := s.results ++ [r] } := rfl

/-- A step with nothing left to present changes nothing. -/
theorem step_nil {s : State} (h : s.program = []) : step s = .next s := by
  simp [step, h]

/-- A step with an input left presents it and runs what it decodes to. -/
theorem step_cons {s : State} {x : Input} {rest : List Input} (h : s.program = x :: rest) :
    step s = exec (decode x) (s.present x rest) := by
  simp [step, h]

end Sys2Proof.Machine
end

