-- ==== Sys2Proof/Laws/Ops.lean ====
section
/-! SUPPORT. One lemma per shared operation, saying once what it computes: the operation select, the
lanes of the identifier word, the validators and the gate. -/

namespace Sys2Proof

@[simp] theorem Op.ofCode_code (o : Op) : Op.ofCode o.code = o := by cases o <;> rfl

@[simp] theorem Op.code_ofCode (c : BitVec 3) : (Op.ofCode c).code = c := by
  revert c; decide

/-- The eight values of `req_op`. -/
theorem opCode_cases (c : BitVec 3) :
    c = 0#3 ∨ c = 1#3 ∨ c = 2#3 ∨ c = 3#3 ∨ c = 4#3 ∨ c = 5#3 ∨ c = 6#3 ∨ c = 7#3 := by
  revert c; decide

theorem fieldsFit_iff {fw p f ps sa : Nat} :
    fieldsFit fw p f ps sa = true ↔ p < 2 ^ fw ∧ f < 2 ^ fw ∧ ps < 2 ^ fw ∧ sa < 2 ^ fw := by
  simp [fieldsFit, and_assoc]

theorem isEncodeImage_iff {c : Word} : isEncodeImage c = true ↔ c &&& 0xE3000000#32 = 0#32 := by
  simp [isEncodeImage]

theorem isValidCanId_iff {c : Word} : isValidCanId c = true ↔ c &&& 0xE0000000#32 = 0#32 := by
  simp [isValidCanId]

namespace Machine

/-- The priority mask is reduction modulo 8 (spec/43_laws.md R68). -/
theorem and_prioMask (v : Nat) : v &&& 0x7 = v % 8 := Nat.and_two_pow_sub_one_eq_mod v 3

/-- A byte mask is reduction modulo 256 (spec/43_laws.md R68). -/
theorem and_byteMask (v : Nat) : v &&& 0xFF = v % 256 := Nat.and_two_pow_sub_one_eq_mod v 8

theorem placedPriority_toNat (v : Nat) : (placedPriority v).toNat = v % 8 * 2 ^ 26 := by
  simp only [placedPriority, placed, and_prioMask, Config.PRIO_SH, BitVec.toNat_shiftLeft,
    BitVec.toNat_ofNat, Nat.shiftLeft_eq]
  omega

theorem placedPf_toNat (v : Nat) : (placedPf v).toNat = v % 256 * 2 ^ 16 := by
  simp only [placedPf, placed, and_byteMask, Config.PF_SH, BitVec.toNat_shiftLeft,
    BitVec.toNat_ofNat, Nat.shiftLeft_eq]
  omega

theorem placedPs_toNat (v : Nat) : (placedPs v).toNat = v % 256 * 2 ^ 8 := by
  simp only [placedPs, placed, and_byteMask, Config.PS_SH, BitVec.toNat_shiftLeft,
    BitVec.toNat_ofNat, Nat.shiftLeft_eq]
  omega

theorem placedSa_toNat (v : Nat) : (placedSa v).toNat = v % 256 := by
  simp only [placedSa, placed, and_byteMask, Config.SA_SH, BitVec.toNat_shiftLeft,
    BitVec.toNat_ofNat, Nat.shiftLeft_eq]
  omega

theorem extractedPriority_toNat (c : Word) :
    (extractedPriority c).toNat = c.toNat / 2 ^ 26 % 8 := by
  simp only [extractedPriority, extracted, BitVec.toNat_setWidth, BitVec.toNat_and,
    BitVec.toNat_ushiftRight, BitVec.toNat_ofNat, Nat.shiftRight_eq_div_pow]
  norm_num [and_prioMask]

theorem extractedPf_toNat (c : Word) : (extractedPf c).toNat = c.toNat / 2 ^ 16 % 256 := by
  simp only [extractedPf, extracted, BitVec.toNat_setWidth, BitVec.toNat_and,
    BitVec.toNat_ushiftRight, BitVec.toNat_ofNat, Nat.shiftRight_eq_div_pow]
  norm_num [and_byteMask]

theorem extractedPs_toNat (c : Word) : (extractedPs c).toNat = c.toNat / 2 ^ 8 % 256 := by
  simp only [extractedPs, extracted, BitVec.toNat_setWidth, BitVec.toNat_and,
    BitVec.toNat_ushiftRight, BitVec.toNat_ofNat, Nat.shiftRight_eq_div_pow]
  norm_num [and_byteMask]

theorem extractedSa_toNat (c : Word) : (extractedSa c).toNat = c.toNat % 256 := by
  simp only [extractedSa, extracted, BitVec.toNat_setWidth, BitVec.toNat_and,
    BitVec.toNat_ushiftRight, BitVec.toNat_ofNat, Nat.shiftRight_eq_div_pow]
  norm_num [and_byteMask]

/-- `validateFields` with its bounds written out (spec/41_validation.md R60). -/
theorem validateFields_eq (p f s a : Nat) : Codec.validateFields p f s a =
    if 7 < p then .outOfRange ⟨.priority, 0#32, 7#32⟩
    else if 255 < f then .outOfRange ⟨.pduFormat, 0#32, 255#32⟩
    else if 255 < s then .outOfRange ⟨.pduSpecific, 0#32, 255#32⟩
    else if 255 < a then .outOfRange ⟨.sourceAddress, 0#32, 255#32⟩
    else .pass := rfl

/-- `validateCanId` with its bound written out (spec/41_validation.md R62). -/
theorem validateCanId_eq (c : Word) : Codec.validateCanId c =
    if 0x1FFFFFFF < c.toNat then .outOfRange ⟨.canId, 0#32, 0x1FFFFFFF#32⟩ else .pass := rfl

/-- When `validateFields` passes: every field in its range (spec/41_validation.md R60). -/
theorem validateFields_pass_iff {p f s a : Nat} :
    Codec.validateFields p f s a = .pass ↔ p ≤ 7 ∧ f ≤ 255 ∧ s ≤ 255 ∧ a ≤ 255 := by
  rw [validateFields_eq]
  split_ifs <;> simp <;> omega

/-- When `validateCanId` passes (spec/41_validation.md R62). -/
theorem validateCanId_pass_iff {c : Word} :
    Codec.validateCanId c = .pass ↔ c.toNat ≤ 0x1FFFFFFF := by
  rw [validateCanId_eq]
  split_ifs <;> simp <;> omega

@[simp] theorem gate_pass (a : Answer) : Check.pass.gate a = a := rfl
@[simp] theorem gate_outOfRange (e : RangeError) (a : Answer) :
    (Check.outOfRange e).gate a = .outOfRange e := rfl

/-- Everything an identifier word arriving does. -/
theorem receiveIdentifier_eq (s : State) (c : Word) :
    s.receiveIdentifier c = .next { s with
      req := { s.req with canId := c }
      results := s.results ++ [respond { s.req with canId := c }] } := rfl

end Machine
end Sys2Proof
end

