-- ==== Sys2Proof/Laws/PerInstr.lean ====
section
/-! SUPPORT. Facts about every instruction as syntax, one lemma per constructor. -/

namespace Sys2Proof.Laws

/-- What a well-formed instruction encodes to can be presented on the ports
(spec/10_state.md R17, spec/30_encoding.md R54). -/
def EncodingFits.Statement (i : Instr) : Prop :=
  ∀ fw, i.fits fw = true → (encode i).fits fw = true

namespace EncodingFits

theorem enc (priority pf ps sa : Nat) : Statement (.enc priority pf ps sa) := fun _ h => h
theorem dec (canId : Word) : Statement (.dec canId) := fun fw _ => by
  simp [encode, Input.fits, Request.fits, identifierRequest, fieldsFit]
theorem vfields (priority pf ps sa : Nat) : Statement (.vfields priority pf ps sa) := fun _ h => h
theorem vcanid (canId : Word) : Statement (.vcanid canId) := fun fw _ => by
  simp [encode, Input.fits, Request.fits, identifierRequest, fieldsFit]
theorem encv (priority pf ps sa : Nat) : Statement (.encv priority pf ps sa) := fun _ h => h
theorem decv (canId : Word) : Statement (.decv canId) := fun fw _ => by
  simp [encode, Input.fits, Request.fits, identifierRequest, fieldsFit]
theorem reserved6 : Statement .reserved6 := fun fw _ => by
  simp [encode, Input.fits, Request.fits, identifierRequest, fieldsFit]
theorem reserved7 : Statement .reserved7 := fun fw _ => by
  simp [encode, Input.fits, Request.fits, identifierRequest, fieldsFit]
theorem canidEncodeImage (canId : Word) : Statement (.canidEncodeImage canId) := fun _ _ => rfl
theorem canidDecodeAccepts (canId : Word) : Statement (.canidDecodeAccepts canId) := fun _ _ => rfl
theorem canidValid (canId : Word) : Statement (.canidValid canId) := fun _ _ => rfl

end EncodingFits
end Sys2Proof.Laws
end

