-- ==== Sys2Proof/Tests/Slice0.lean ====
section
/-! SUPPORT. Tests: well-formedness, decoding of words written out from the spec, one transaction each
from the vectors of spec/95_test_vectors.md, and a witness for the hypotheses of each statement. Every
expected value is the spec's. -/

namespace Sys2Proof.Tests
open Sys2Proof Sys2Proof.Machine

/-! ### Well-formedness: an ill-formed term for each check, and the boundary that passes -/

theorem test_wf_refuses_wide_priority : ¬ (Instr.enc (2 ^ 32) 0 0 0).WellFormed := by decide
theorem test_wf_refuses_wide_pf : ¬ (Instr.vfields 0 (2 ^ 32) 0 0).WellFormed := by decide
theorem test_wf_refuses_wide_ps : ¬ (Instr.encv 0 0 (2 ^ 32) 0).WellFormed := by decide
theorem test_wf_refuses_wide_sa : ¬ (Instr.enc 0 0 0 (2 ^ 32)).WellFormed := by decide
theorem test_wf_refuses_unoccupied_bit_in_encode_image :
    ¬ (Instr.canidEncodeImage 0x01000000#32).WellFormed := by decide
theorem test_wf_refuses_ceiling_bit_in_valid : ¬ (Instr.canidValid 0x20000000#32).WellFormed := by decide
theorem test_wf_accepts_port_maximum :
    (Instr.enc 0xFFFFFFFF 0xFFFFFFFF 0xFFFFFFFF 0xFFFFFFFF).WellFormed := by decide
theorem test_wf_first_out_of_range_values_fit_the_least_width :
    (Instr.vfields 8 256 256 256).fits 9 = true := by decide

/-! ### Decoding: words written out from the spec -/

/-- The instruction in a REQ record at `FW = 32` (spec/30_encoding.md R44). -/
def decodeRecord (n : BitVec 163) : Instr := decode (.request (.ofRecord 32 n))

-- 95_test_vectors.md P1 requests 0 to 3, P5 request 4, P3 request 4, P4 requests 1 and 2.
theorem test_decode_enc :
    decodeRecord 0x000000006000000EA00000000000000F900000000#163 = .enc 6 0xEA 0 0xF9 := by decide
theorem test_decode_dec :
    decodeRecord 0x10000000000000000000000000000000018EA00F9#163 = .dec 0x18EA00F9#32 := by decide
theorem test_decode_vfields :
    decodeRecord 0x200000006000000EA00000000000000F900000000#163 = .vfields 6 0xEA 0 0xF9 := by decide
theorem test_decode_vcanid :
    decodeRecord 0x30000000000000000000000000000000018EA00F9#163 = .vcanid 0x18EA00F9#32 := by decide
theorem test_decode_encv :
    decodeRecord 0x400000000000000000000012C0000012C00000000#163 = .encv 0 0 0x12C 0x12C := by decide
theorem test_decode_decv :
    decodeRecord 0x5000000000000000000000000000000001BEA00F9#163 = .decv 0x1BEA00F9#32 := by decide
theorem test_decode_reserved6 :
    decodeRecord 0x60000000000000000000000000000000000000000#163 = .reserved6 := by decide
theorem test_decode_reserved7 :
    decodeRecord 0x700000008000001000000010000000100FFFFFFFF#163 = .reserved7 := by decide
-- 30_encoding.md R38, the patterns bit by bit; the first word is 95_test_vectors.md S8.
theorem test_decode_canid_encode_image :
    decode (.identifier 0b00011000111010100000000011111001#32) = .canidEncodeImage 0x18EA00F9#32 := by
  decide
theorem test_decode_canid_valid :
    decode (.identifier 0b00011010111010100000000011111001#32) = .canidValid 0x1AEA00F9#32 := by decide
theorem test_decode_canid_decode_accepts :
    decode (.identifier 0b00111100111010100000000011111001#32) = .canidDecodeAccepts 0x3CEA00F9#32 := by
  decide

-- 95_test_vectors.md P2 request 4, P2 request 5: the record an instruction encodes to.
theorem test_encode_encv : encode (.encv 7 0xFF 0xFF 0xFF) =
    .request (.ofRecord 32 0x400000007000000FF000000FF000000FF00000000#163) := by decide
theorem test_encode_vcanid : encode (.vcanid 0x20000000#32) =
    .request (.ofRecord 32 0x30000000000000000000000000000000020000000#163) := by decide

-- The table's rows: `match` on `req_op[2:0]`, the identifier formats on 32 bits.
theorem test_table_word_decv : decodeTableWord 8 5 = some (.decv 0#32) := by decide
theorem test_table_word_reserved7 : decodeTableWord 168 7 = some .reserved7 := by decide
theorem test_table_word_valid : decodeTableWord 32 0x03000000 = some (.canidValid 0x03000000#32) := by
  decide
theorem test_table_word_too_short_is_rejected_by_name :
    decodeBits 2 0 = .error Reject.noOperationSelect := rfl

/-! ### One transaction each -/

/-- The run so far, if a step answered a next state. -/
def after : Host.Outcome State Fault Refusal → Option State
  | .next s => some s
  | .fault _ => none
  | .refused _ => none

/-- The state of a host with one request, given as a REQ record, to present. -/
def hosting (n : BitVec 163) : State :=
  { State.reset with program := [.request (.ofRecord 32 n)] }

/-- The RSP record of the one response a step on a REQ record gives. -/
def responseTo (n : BitVec 163) : Option (List (BitVec 128)) :=
  (after (step (hosting n))).map fun t => t.results.map Response.record

-- 95_test_vectors.md: P1 0 and P4 0.
theorem test_enc_scenario : responseTo 0x000000006000000EA00000000000000F900000000#163 =
    some [0x000000000000000000C75007C8000000#128] := by decide
theorem test_enc_masks_three_byte_fields : responseTo 0x000000003000001FE000002CA000003FEFFFFFFFF#163 =
    some [0x00000000000000000067F657F0000000#128] := by decide
-- P4 4 and P2 6.
theorem test_dec_ignores_field_inputs : responseTo 0x1000000080000010000000100000001000CFECAFE#163 =
    some [0x00000000000000000000000003FECAFE#128] := by decide
theorem test_dec_accepts_above_ceiling : responseTo 0x10000000000000000000000000000000020000000#163 =
    some [0x00000000000000000000000000000000#128] := by decide
-- P5 0 and P5 2.
theorem test_vfields_reports_priority_first : responseTo 0x20000000800000100000000000000000000000000#163 =
    some [0x48000000000000003800000000000000#128] := by decide
theorem test_vfields_reports_ps_before_sa : responseTo 0x200000007000000FF000001000000010000000000#163 =
    some [0x5800000000000007F800000000000000#128] := by decide
-- P2 5 and P3 0.
theorem test_vcanid_rejects_ceiling_plus_one :
    responseTo 0x30000000000000000000000000000000020000000#163 =
    some [0x6800000000FFFFFFF800000000000000#128] := by decide
theorem test_vcanid_passes_ceiling : responseTo 0x3000000000000000000000000000000001FFFFFFF#163 =
    some [0x00000000000000000000000000000000#128] := by decide
-- P2 4 and P4 5.
theorem test_encv_maximum : responseTo 0x400000007000000FF000000FF000000FF00000000#163 =
    some [0x000000000000000000E7FFFFF8000000#128] := by decide
theorem test_encv_rejects_what_enc_truncates :
    responseTo 0x400000003000001FE000002CA000003FE00000000#163 =
    some [0x5000000000000007F800000000000000#128] := by decide
-- P3 4 and P2 7.
theorem test_decv_drops_unoccupied_bits : responseTo 0x5000000000000000000000000000000001BEA00F9#163 =
    some [0x00000000000000000000000006EA00F9#128] := by decide
theorem test_decv_rejects_above_ceiling : responseTo 0x50000000000000000000000000000000020000000#163 =
    some [0x6800000000FFFFFFF800000000000000#128] := by decide
-- P4 1 and P4 2 (BAD-01, BAD-04).
theorem test_reserved6 : responseTo 0x60000000000000000000000000000000000000000#163 =
    some [0x80000000000000000000000000000000#128] := by decide
theorem test_reserved7_reads_no_operand : responseTo 0x700000008000001000000010000000100FFFFFFFF#163 =
    some [0x80000000000000000000000000000000#128] := by decide

/-- A state with an operation code on the inputs and everything else zero. -/
def underOp (op : BitVec 3) : State := { State.reset with req := ⟨op, 0, 0, 0, 0, 0#32⟩ }

/-- The outputs after a data-format row. -/
def outputsAfter (i : Instr) (s : State) : Option (BitVec 128) :=
  (after (exec i s)).map fun t => t.rsp.record

-- DECV-01, VC-20 and DEC-32 of 95_test_vectors.md, the word arriving alone.
theorem test_arriving_encode_image_under_decv :
    outputsAfter (.canidEncodeImage 0x18EA00F9#32) (underOp 5#3) =
    some 0x00000000000000000000000006EA00F9#128 := by decide
theorem test_arriving_valid_under_vcanid :
    outputsAfter (.canidValid 0x03000000#32) (underOp 3#3) = some 0#128 := by decide
theorem test_arriving_any_word_under_dec :
    outputsAfter (.canidDecodeAccepts 0xFFFFFFFF#32) (underOp 1#3) =
    some 0x00000000000000000000000007FFFFFF#128 := by decide

theorem test_with_fetch_word_runs_it : (after (step (State.reset.withFetchWord 8 6))).map (·.rsp.status) =
    some 2#2 := by decide
theorem test_step_at_the_end_changes_nothing : after (step State.reset) = some State.reset := by decide

/-! ### Witnesses: the hypotheses of each statement are met together -/

theorem witness_decoding_the_encoded_record :
    (Instr.vfields 8 256 256 256).isOperation = true ∧ (Instr.vfields 8 256 256 256).fits 9 = true := by
  decide
theorem witness_request_record : (Request.mk 5#3 0xFFFFFFFF 0 0 0xFFFFFFFF 1#32).fits 32 = true := by
  decide

-- Each clause of VFIELDS and ENCV at its boundary (VF-17, VF-30 to VF-32, VF-03).
theorem witness_offender_clauses :
    Codec.validateFields 8 256 256 256 = .outOfRange ⟨.priority, 0#32, 7#32⟩ ∧
    Codec.validateFields 7 256 256 256 = .outOfRange ⟨.pduFormat, 0#32, 255#32⟩ ∧
    Codec.validateFields 7 255 256 256 = .outOfRange ⟨.pduSpecific, 0#32, 255#32⟩ ∧
    Codec.validateFields 7 255 255 256 = .outOfRange ⟨.sourceAddress, 0#32, 255#32⟩ ∧
    Codec.validateFields 7 255 255 255 = .pass := by decide
-- Both clauses of VCANID and DECV at the ceiling (VC-03, VC-26).
theorem witness_ceiling_clauses :
    (0x20000000#32).extractLsb' 29 3 ≠ 0#3 ∧ (0x1FFFFFFF#32).extractLsb' 29 3 = 0#3 := by decide

theorem witness_reserved_request :
    (hosting 0x60000000000000000000000000000000000000000#163).program =
      [.request ⟨6#3, 0, 0, 0, 0, 0#32⟩] ∧ 6 ≤ (6#3).toNat ∧ 6 ≤ (7#3).toNat := by decide
theorem witness_arriving_words :
    (underOp 1#3).req.op = 1#3 ∧ (underOp 3#3).req.op = 3#3 ∧ (underOp 5#3).req.op = 5#3 ∧
    (Instr.canidValid 0x1FFFFFFF#32).WellFormed ∧ ¬ (Instr.canidValid 0x20000000#32).WellFormed := by
  decide

theorem witness_next_input_is_a_request :
    { State.reset with program := [.request ⟨1#3, 0, 0, 0, 0, 1#32⟩, .identifier 2#32] }.program =
      .request ⟨1#3, 0, 0, 0, 0, 1#32⟩ :: [.identifier 2#32] := rfl
theorem witness_next_input_is_an_identifier :
    { State.reset with program := [.identifier 0x1FFFFFFF#32] }.program =
      .identifier 0x1FFFFFFF#32 :: [] := rfl
theorem witness_nothing_to_present : State.reset.program = [] := rfl
theorem witness_program_of_requests :
    { State.reset with program := [.request ⟨0#3, 8, 0, 0, 0, 0#32⟩, .request ⟨4#3, 8, 0, 0, 0, 0#32⟩] }.program =
      [⟨0#3, 8, 0, 0, 0, 0#32⟩, ⟨4#3, 8, 0, 0, 0, 0#32⟩].map Input.request := rfl
theorem witness_history :
    { State.reset with program := [.identifier 1#32, .request ⟨4#3, 8, 0, 0, 0, 0#32⟩] }.program =
      [.identifier 1#32] ++ [.request ⟨4#3, 8, 0, 0, 0, 0#32⟩] := rfl

-- Every instruction answers a next state somewhere (frames, idempotence, outputs follow the inputs).
theorem witness_exec_answers :
    (after (exec (.enc 8 0 0 0) State.reset)).isSome ∧ (after (exec (.dec 1#32) State.reset)).isSome ∧
    (after (exec (.vfields 8 0 0 0) State.reset)).isSome ∧
    (after (exec (.vcanid 1#32) State.reset)).isSome ∧
    (after (exec (.encv 8 0 0 0) State.reset)).isSome ∧
    (after (exec (.decv 1#32) State.reset)).isSome ∧
    (after (exec .reserved6 State.reset)).isSome ∧ (after (exec .reserved7 State.reset)).isSome ∧
    (after (exec (.canidEncodeImage 1#32) State.reset)).isSome ∧
    (after (exec (.canidDecodeAccepts 1#32) State.reset)).isSome ∧
    (after (exec (.canidValid 1#32) State.reset)).isSome := by decide

-- IGN-09 with IGN-10, IGN-03 with IGN-04, BAD-01 with BAD-03: same operation, unread ports differ.
theorem witness_unread_inputs :
    respond ⟨4#3, 8, 0, 0, 0, 0#32⟩ = respond ⟨4#3, 8, 0, 0, 0, 0x20000000#32⟩ ∧
    respond ⟨1#3, 0, 0, 0, 0, 0x18EA00F9#32⟩ = respond ⟨1#3, 8, 256, 256, 256, 0x18EA00F9#32⟩ ∧
    respond ⟨6#3, 0, 0, 0, 0, 0#32⟩ = respond ⟨6#3, 6, 0xEA, 0, 0xF9, 0x18EA00F9#32⟩ := by decide
-- Every operation code is taken by some request, and both outcomes of a gate occur (DECV-04, DECV-32).
theorem witness_outputs_per_operation :
    (respond ⟨0#3, 8, 0, 0, 0, 0#32⟩).status = 0#2 ∧ (respond ⟨1#3, 0, 0, 0, 0, 0#32⟩).status = 0#2 ∧
    (respond ⟨2#3, 8, 0, 0, 0, 0#32⟩).status = 1#2 ∧ (respond ⟨3#3, 0, 0, 0, 0, 0#32⟩).status = 0#2 ∧
    (respond ⟨4#3, 7, 0, 0, 0, 0#32⟩).status = 0#2 ∧
    (respond ⟨5#3, 0, 0, 0, 0, 0x1CFFFFFF#32⟩).pf = 255#8 ∧
    (respond ⟨5#3, 0, 0, 0, 0, 0xFFFFFFFF#32⟩).pf = 0#8 ∧
    (respond ⟨6#3, 0, 0, 0, 0, 0#32⟩).status = 2#2 ∧ (respond ⟨7#3, 0, 0, 0, 0, 0#32⟩).status = 2#2 := by
  decide

theorem witness_safe_state_with_a_next_state :
    (hosting 0x400000007000000FF000000FF000000FF00000000#163).Safe ∧
    (after (step (hosting 0x400000007000000FF000000FF000000FF00000000#163))).isSome := by decide

-- The laws of the codec: L-R69, S8, L-R72, L-R73, L-R76, L-R78.
theorem witness_lane_masks :
    0xDEADBEEF#32 &&& 0x1C000000#32 = 0x1C000000#32 &&& 0x1C000000#32 ∧
    0xDEADBEEF#32 &&& 0x00FF0000#32 = 0x00AD0000#32 &&& 0x00FF0000#32 ∧
    0xDEADBEEF#32 &&& 0x0000FF00#32 = 0x0000BE00#32 &&& 0x0000FF00#32 ∧
    0xDEADBEEF#32 &&& 0x000000FF#32 = 0x000000EF#32 &&& 0x000000FF#32 := by decide
theorem witness_valid_tuple : Codec.encode 7 255 255 255 = 0x1CFFFFFF#32 ∧
    Codec.decode 0x1CFFFFFF#32 = ⟨7#3, 255#8, 255#8, 255#8⟩ ∧
    0x1CFFFFFF#32 &&& 0xE3000000#32 = 0#32 := by decide
theorem witness_words_decoding_alike :
    (0x18EA00F9#32).toNat ≤ 0x1FFFFFFF ∧ Codec.decode 0x1BEA00F9#32 = Codec.decode 0x18EA00F9#32 := by
  decide
theorem witness_other_gate :
    (respond ⟨5#3, 0, 0, 0, 0, (respond ⟨0#3, 8, 256, 256, 256, 0#32⟩).canId⟩).status = 0#2 ∧
    (respond ⟨4#3, (respond ⟨1#3, 0, 0, 0, 0, 0xFFFFFFFF#32⟩).priority.toNat, 255, 255, 255, 0#32⟩).status =
      0#2 := by decide
theorem witness_lexicographic_neighbours :
    (Codec.encode 0 255 255 255).toNat < (Codec.encode 1 0 0 0).toNat ∧
    (Codec.encode 0 0 0 255).toNat < (Codec.encode 0 0 1 0).toNat := by decide
theorem witness_validators :
    Codec.validateCanId 0x1FFFFFFF#32 = .pass ∧
    Codec.validateCanId 0x20000000#32 = .outOfRange ⟨.canId, 0#32, 0x1FFFFFFF#32⟩ := by decide

-- P2 0 to 2: what the validator rejects; P3 4 and 5: what is lost without a status.
theorem witness_rejected_and_truncated :
    Codec.validateFields 8 0x12 0x34 0x56 ≠ .pass ∧ Codec.validateCanId 0x20000000#32 ≠ .pass ∧
    (respond ⟨2#3, 8, 0x12, 0x34, 0x56, 0#32⟩).status ≠ 0#2 ∧
    (respond ⟨0#3, 8, 0x12, 0x34, 0x56, 0#32⟩).canId = 0x00123456#32 ∧
    (respond ⟨3#3, 0, 0, 0, 0, 0x20000000#32⟩).status ≠ 0#2 := by decide
theorem witness_reencoding :
    (0x1BEA00F9#32).toNat ≤ 0x1FFFFFFF ∧
    (respond ⟨5#3, 0, 0, 0, 0, 0x1BEA00F9#32⟩).priority.toNat = 6 ∧
    (respond ⟨5#3, 0, 0, 0, 0, 0x1BEA00F9#32⟩).pf.toNat = 0xEA ∧
    (respond ⟨5#3, 0, 0, 0, 0, 0x1BEA00F9#32⟩).ps.toNat = 0 ∧
    (respond ⟨5#3, 0, 0, 0, 0, 0x1BEA00F9#32⟩).sa.toNat = 0xF9 ∧
    (respond ⟨4#3, 6, 0xEA, 0, 0xF9, 0#32⟩).canId = 0x18EA00F9#32 := by decide
theorem witness_status_first :
    (respond ⟨4#3, 0, 0, 0, 0, 0#32⟩).usableIdentifier = some 0#32 ∧
    (respond ⟨4#3, 8, 0x12, 0x34, 0x56, 0#32⟩).usableIdentifier = none ∧
    (respond ⟨5#3, 0, 0, 0, 0, 0#32⟩).usableFields = some ⟨0#3, 0#8, 0#8, 0#8⟩ ∧
    (respond ⟨5#3, 0, 0, 0, 0, 0x20000000#32⟩).usableFields = none := by decide
theorem witness_priority_of_errors :
    (respond ⟨2#3, 8, 256, 256, 256, 0xFFFFFFFF#32⟩).errField = 1#3 ∧
    (respond ⟨4#3, 7, 256, 256, 256, 0xFFFFFFFF#32⟩).errField = 2#3 ∧
    (respond ⟨2#3, 7, 255, 256, 256, 0xFFFFFFFF#32⟩).errField = 3#3 ∧
    (respond ⟨4#3, 7, 255, 255, 256, 0xFFFFFFFF#32⟩).errField = 4#3 ∧
    (respond ⟨5#3, 8, 256, 256, 256, 0xFFFFFFFF#32⟩).errField = 5#3 ∧
    (respond ⟨7#3, 8, 256, 256, 256, 0xFFFFFFFF#32⟩).status = 2#2 := by decide

end Sys2Proof.Tests
end

section
/-! PROOFS. What a transaction and a step do, once for all instructions: every instruction drives some
inputs and then records `respond` of what stands on them. -/

namespace Sys2Proof

/-- The request on the inputs once an instruction has driven the inputs it reads
(spec/10_state.md R16, spec/30_encoding.md R47). -/
def Instr.driven : Instr → Request → Request
  | .enc p f ps sa, r => { r with op := Op.enc.code, priority := p, pf := f, ps := ps, sa := sa }
  | .dec c, r => { r with op := Op.dec.code, canId := c }
  | .vfields p f ps sa, r => { r with op := Op.vfields.code, priority := p, pf := f, ps := ps, sa := sa }
  | .vcanid c, r => { r with op := Op.vcanid.code, canId := c }
  | .encv p f ps sa, r => { r with op := Op.encv.code, priority := p, pf := f, ps := ps, sa := sa }
  | .decv c, r => { r with op := Op.decv.code, canId := c }
  | .reserved6, r => { r with op := Op.reserved6.code }
  | .reserved7, r => { r with op := Op.reserved7.code }
  | .canidEncodeImage c, r | .canidDecodeAccepts c, r | .canidValid c, r => { r with canId := c }

/-- A request already holds what its own row drives. -/
theorem driven_decodeRequest (r : Request) : (decodeRequest r).driven r = r := by
  have hop : (Op.ofCode r.op).code = r.op := Op.code_ofCode r.op
  unfold decodeRequest
  cases h : Op.ofCode r.op <;> rw [h] at hop <;> simp [Instr.driven, hop]

/-- The three data-format rows drive the word alone, so which of them a word decodes to does not matter
(notes/assumptions/4.md). -/
theorem driven_decodeIdentifier (c : Word) (r : Request) :
    (decodeIdentifier c).driven r = { r with canId := c } := by
  unfold decodeIdentifier
  split_ifs <;> rfl

namespace Machine

/-- The transaction of every instruction: drive the inputs, record `respond` of them. -/
theorem exec_eq (i : Instr) (s : State) : exec i s =
    State.respondWith { s with req := i.driven s.req } (respond (i.driven s.req)) := by
  cases i <;> rfl

/-- The input presented already holds what the instruction it decodes to drives. -/
theorem driven_decode_present (s : State) (x : Input) (rest : List Input) :
    (decode x).driven (s.present x rest).req = (s.present x rest).req := by
  cases x with
  | request r => exact driven_decodeRequest r
  | identifier c => exact driven_decodeIdentifier c _

/-- A step with an input left presents it and records the outputs that result. -/
theorem step_eq_respondWith_rsp {s : State} {x : Input} {rest : List Input}
    (h : s.program = x :: rest) :
    step s = (s.present x rest).respondWith (s.present x rest).rsp := by
  rw [step_cons h, exec_eq, driven_decode_present, State.rsp]

/-- Everything a step can do. -/
theorem step_cases {s t : State} (h : step s = .next t) :
    (s.program = [] ∧ t = s) ∨
    ∃ x rest, s.program = x :: rest ∧ t = { s.present x rest with
      results := s.results ++ [(s.present x rest).rsp] } := by
  cases hp : s.program with
  | nil =>
    rw [step_nil hp] at h
    cases h
    exact .inl ⟨rfl, rfl⟩
  | cons x rest =>
    rw [step_eq_respondWith_rsp hp, respondWith_next_iff, present_results] at h
    exact .inr ⟨x, rest, rfl, h⟩

/-- Settles O17: presenting the input is the record update the statement writes out. -/
theorem stepRunsTheDecodedInput : Obligations.StepRunsTheDecodedInput :=
  ⟨fun _ _ _ h => step_cons h, fun _ _ _ h => step_cons h, fun _ h => step_nil h⟩

/-- Settles O18: `step_eq_respondWith_rsp` for each of the two forms of input. -/
theorem stepIsRespondOfThePresentedRequest : Obligations.StepIsRespondOfThePresentedRequest :=
  ⟨fun _ _ _ h => step_eq_respondWith_rsp h, fun _ _ _ h => step_eq_respondWith_rsp h⟩

/-- Settles O19, by induction on the requests, from any state. -/
theorem programResultIsTheListOfResponses : Obligations.ProgramResultIsTheListOfResponses := by
  intro rs
  induction rs with
  | nil =>
    intro s k h
    obtain ⟨req, program, results⟩ := s
    obtain rfl : program = [] := h
    simpa using run_nil rfl k
  | cons r rs ih =>
    intro s k h
    have hstep := stepIsRespondOfThePresentedRequest.1 s r (rs.map .request) h
    rw [List.length_cons, Nat.add_right_comm, run_succ_of_next hstep]
    refine (ih _ k rfl).trans ?_
    simp only [List.getLastD_cons, List.map_cons, List.append_assoc, List.singleton_append]

/-- Settles O23: the outputs are computed from the inputs, and the response recorded is that value. -/
theorem outputsFollowTheInputs : Obligations.OutputsFollowTheInputs := by
  intro i s t h
  rw [exec_eq, respondWith_next_iff] at h
  subst h
  exact ⟨rfl, rfl⟩

end Machine
end Sys2Proof
end

section
/-! PROOFS. The inputs an operation does not read (spec/30_encoding.md R47). -/

namespace Sys2Proof.Machine

/-- The operations that read the fields do not read the identifier. -/
theorem respond_with_canId {r : Request} (h : r.op = 0#3 ∨ r.op = 2#3 ∨ r.op = 4#3) (c : Word) :
    respond { r with canId := c } = respond r := by
  rcases h with h | h | h <;> simp [respond, answer, h, Op.ofCode]

/-- The operations that read the identifier do not read the fields. -/
theorem respond_with_fields {r : Request} (h : r.op = 1#3 ∨ r.op = 3#3 ∨ r.op = 5#3)
    (p f ps sa : Nat) :
    respond { r with priority := p, pf := f, ps := ps, sa := sa } = respond r := by
  rcases h with h | h | h <;> simp [respond, answer, h, Op.ofCode]

/-- The reserved codes read no operand. -/
theorem respond_reserved {r : Request} (h : r.op = 6#3 ∨ r.op = 7#3) : respond r = raiseBadOp := by
  rcases h with h | h <;> simp [respond, answer, h, Op.ofCode] <;> rfl

/-- Settles O25: two such requests differ in unread inputs only. -/
theorem unreadInputsHaveNoEffect : Obligations.UnreadInputsHaveNoEffect := by
  rintro r ⟨op, p, f, ps, sa, c⟩ rfl
  refine ⟨?_, ?_, ?_⟩
  · rintro h rfl rfl rfl rfl
    exact (respond_with_canId h c).symm
  · rintro h rfl
    exact (respond_with_fields h p f ps sa).symm
  · intro h
    exact (respond_reserved h).trans (respond_reserved (r := ⟨r.op, p, f, ps, sa, c⟩) h).symm

end Sys2Proof.Machine
end

section
/-! PROOFS. Every response is legal (spec/10_state.md R18, R22, spec/30_encoding.md R49, R50), and the
invariant of a run. -/

namespace Sys2Proof.Machine

/-- A placed operand has no bit outside its lane: bits that miss the mask in its place are zero. -/
theorem placed_and_eq_zero {mask shift : Nat} {m : Word}
    (h : BitVec.ofNat 32 mask <<< shift &&& m = 0#32) (v : Nat) : placed v mask shift &&& m = 0#32 := by
  rw [placed, BitVec.ofNat_and, BitVec.shiftLeft_and_distrib, BitVec.and_assoc, h, BitVec.and_zero]

/-- The packed identifier leaves the ceiling and the unoccupied bits zero (spec/43_laws.md R72). -/
theorem encode_and_ignored_eq_zero (p f s a : Nat) :
    Codec.encode p f s a &&& 0xE3000000#32 = 0#32 := by
  have hp : placedPriority p &&& 0xE3000000#32 = 0#32 := placed_and_eq_zero (by decide) p
  have hf : placedPf f &&& 0xE3000000#32 = 0#32 := placed_and_eq_zero (by decide) f
  have hs : placedPs s &&& 0xE3000000#32 = 0#32 := placed_and_eq_zero (by decide) s
  have ha : placedSa a &&& 0xE3000000#32 = 0#32 := placed_and_eq_zero (by decide) a
  simp only [Codec.encode, BitVec.and_or_distrib_right, hp, hf, hs, ha, BitVec.or_zero]

theorem validateFields_cases (p f s a : Nat) :
    Codec.validateFields p f s a = .pass ∨
    ∃ e : ErrField, Codec.validateFields p f s a = .outOfRange e.error := by
  unfold Codec.validateFields
  split_ifs
  exacts [.inr ⟨_, rfl⟩, .inr ⟨_, rfl⟩, .inr ⟨_, rfl⟩, .inr ⟨_, rfl⟩, .inl rfl]

theorem validateCanId_cases (c : Word) :
    Codec.validateCanId c = .pass ∨
    ∃ e : ErrField, Codec.validateCanId c = .outOfRange e.error := by
  unfold Codec.validateCanId
  split_ifs
  exacts [.inr ⟨_, rfl⟩, .inl rfl]

theorem legal_passed : Answer.passed.response.legal = true := rfl

theorem legal_packed {c : Word} (h : c &&& 0xE3000000#32 = 0#32) :
    (Answer.packed c).response.legal = true := by
  simp [Answer.response, Response.filler, Response.legal, Response.noError, statusOk, errFieldNone, h]

theorem legal_unpacked (d : J1939Fields) : (Answer.unpacked d).response.legal = true := by
  simp [Answer.response, Response.filler, Response.legal, Response.noError, statusOk, errFieldNone]

theorem legal_fieldError (e : ErrField) : (Answer.outOfRange e.error).response.legal = true := by
  cases e <;> rfl

theorem legal_badOp : Answer.badOp.response.legal = true := rfl

/-- A gate lets a legal answer through or answers a field's error, which is legal too. -/
theorem legal_gate {k : Check} {a : Answer} (hk : k = .pass ∨ ∃ e : ErrField, k = .outOfRange e.error)
    (ha : a.response.legal = true) : (k.gate a).response.legal = true := by
  obtain rfl | ⟨e, rfl⟩ := hk
  · exact ha
  · exact legal_fieldError e

/-- The response to any request is legal. -/
theorem legal_respond (r : Request) : (respond r).legal = true := by
  have hpack := legal_packed (encode_and_ignored_eq_zero r.priority r.pf r.ps r.sa)
  have hunpack := legal_unpacked (Codec.decode r.canId)
  have hfields := validateFields_cases r.priority r.pf r.ps r.sa
  have hid := validateCanId_cases r.canId
  unfold respond answer
  cases Op.ofCode r.op with
  | enc => exact hpack
  | dec => exact hunpack
  | vfields => exact legal_gate hfields legal_passed
  | vcanid => exact legal_gate hid legal_passed
  | encv => exact legal_gate hfields hpack
  | decv => exact legal_gate hid hunpack
  | reserved6 => exact legal_badOp
  | reserved7 => exact legal_badOp

theorem safe_iff {s : State} : s.Safe ↔
    (∀ r ∈ s.results, r.legal = true) ∧ (∀ x ∈ s.program, x.fits Config.FW = true) ∧
      s.req.fits Config.FW = true := by
  simp [State.Safe, State.inv, and_assoc]

/-- What is presented fits the inputs: a request by itself, a word because the field inputs stay. -/
theorem present_req_fits {fw : Nat} {s : State} {x : Input} (hs : s.req.fits fw = true)
    (hx : x.fits fw = true) (rest : List Input) : (s.present x rest).req.fits fw = true := by
  cases x with
  | request r => exact hx
  | identifier c => exact hs

/-- Settles O28: the one response a step adds is legal, and what it presents was to be presented. -/
theorem everyStepKeepsTheRunSafe : Obligations.EveryStepKeepsTheRunSafe := by
  intro s t hs h
  obtain ⟨-, rfl⟩ | ⟨x, rest, hp, rfl⟩ := step_cases h
  · exact hs
  · obtain ⟨hlegal, hfits, hreq⟩ := safe_iff.1 hs
    rw [hp, List.forall_mem_cons] at hfits
    obtain ⟨hx, hrest⟩ := hfits
    refine safe_iff.2 ⟨?_, ?_, present_req_fits hreq hx rest⟩
    · exact List.forall_mem_append.2 ⟨hlegal, List.forall_mem_singleton.2 (legal_respond _)⟩
    · simpa using hrest

/-- Settles O27: nothing has been given or is to be presented, and zero fits every field input. -/
theorem resetIsSafe : Obligations.ResetIsSafe :=
  ⟨by decide, rfl, rfl, rfl⟩

end Sys2Proof.Machine
end

section
/-! PROOFS. What is presented again and what was presented before (spec/20_memory.md R31, R34). -/

namespace Sys2Proof

/-- What an instruction drives, it drives to the same values again. -/
theorem driven_driven (i : Instr) (r : Request) : i.driven (i.driven r) = i.driven r := by
  cases i <;> rfl

namespace Machine

/-- A step with an input left completes, leaves the other inputs to present and adds one response. -/
theorem exists_step_cons {s : State} {x : Input} {rest : List Input} (h : s.program = x :: rest) :
    ∃ t : State, step s = .next t ∧ t.program = rest ∧
      t.results.length = s.results.length + 1 :=
  ⟨_, step_eq_respondWith_rsp h, present_program s x rest, by simp⟩

/-- A run over the first inputs of a program leaves the others to present, with one response more for
each input. -/
theorem exists_run_length_add {before rest : List Input} {s : State}
    (h : s.program = before ++ rest) :
    ∃ u : State, u.program = rest ∧ u.results.length = s.results.length + before.length ∧
      ∀ k, Host.Core.run Sys2Proof.core (before.length + k) s = Host.Core.run Sys2Proof.core k u := by
  induction before generalizing s with
  | nil => exact ⟨s, h, rfl, fun k => by rw [List.length_nil, Nat.zero_add]⟩
  | cons x before ih =>
    obtain ⟨t, hstep, htprogram, htlength⟩ := exists_step_cons h
    obtain ⟨u, hprogram, hlength, hrun⟩ := ih htprogram
    refine ⟨u, hprogram, ?_, fun k => ?_⟩
    · rw [hlength, htlength, List.length_cons]; omega
    · rw [List.length_cons, Nat.add_right_comm, run_succ_of_next hstep, hrun]

/-- Settles O20: after the inputs before it the request stands alone in the program, and the one step
left records `respond` of it (`stepIsRespondOfThePresentedRequest`). -/
theorem responseDoesNotDependOnHistory : Obligations.ResponseDoesNotDependOnHistory := by
  intro before r s h
  obtain ⟨u, hprogram, hlength, hrun⟩ := exists_run_length_add h
  have hstep := stepIsRespondOfThePresentedRequest.1 u r [] hprogram
  refine ⟨_, (hrun 1).trans (run_succ_of_next hstep 0), ?_, ?_⟩
  · rw [List.length_append, List.length_singleton, hlength]
  · exact List.getLast?_concat

/-- Settles O24: the inputs after a transaction hold what it drives (`driven_driven`), so the second
one drives nothing new. -/
theorem transactionsAreIdempotent : Obligations.TransactionsAreIdempotent := by
  intro i s t h
  rw [exec_eq, respondWith_next_iff] at h
  have hdriven : i.driven t.req = t.req := by
    rw [h, driven_driven]
  rw [exec_eq, hdriven, respondWith_eq, State.rsp]

end Machine
end Sys2Proof
end

section
/-! PROOFS. The records (spec/30_encoding.md R44, R45): each part of a concatenation is read back at the
sum of the widths below it. -/

namespace Sys2Proof

section Append
variable {v w : Nat} (x : BitVec v) (y : BitVec w)

/-- Reading above the low part of a concatenation reads the high part. -/
theorem extractLsb'_add_append (start len : Nat) :
    (x ++ y).extractLsb' (start + w) len = x.extractLsb' start len := by
  rw [BitVec.extractLsb'_append_eq_of_le (Nat.le_add_left w start), Nat.add_sub_cancel]

/-- Reading just above the low part reads the high part from its bit 0. -/
theorem extractLsb'_width_append (len : Nat) :
    (x ++ y).extractLsb' w len = x.extractLsb' 0 len := by
  simpa using extractLsb'_add_append x y 0 len

end Append

/-- Reading a REQ record back gives the request that was laid out, when it fits the ports. -/
theorem ofRecord_toRecord {fw : Nat} {r : Request} (h : r.fits fw = true) :
    Request.ofRecord fw (r.toRecord fw) = r := by
  obtain ⟨hp, hf, hs, ha⟩ := fieldsFit_iff.1 h
  simp only [Request.ofRecord, Request.toRecord, extractLsb'_add_append, extractLsb'_width_append,
    BitVec.extractLsb'_append_eq_right, BitVec.extractLsb'_eq_self, BitVec.toNat_ofNat,
    Nat.mod_eq_of_lt hp, Nat.mod_eq_of_lt hf, Nat.mod_eq_of_lt hs, Nat.mod_eq_of_lt ha]

/-- Laying out the request read from a REQ record gives the record. -/
theorem toRecord_ofRecord (fw : Nat) (n : BitVec (recordWidth fw)) :
    (Request.ofRecord fw n).toRecord fw = n := by
  simp only [Request.toRecord, Request.ofRecord, BitVec.ofNat_toNat, BitVec.setWidth_eq]
  rw [BitVec.extractLsb'_append_extractLsb'_eq_extractLsb' (by omega),
    BitVec.extractLsb'_append_extractLsb'_eq_extractLsb' (by omega),
    BitVec.extractLsb'_append_extractLsb'_eq_extractLsb' (by omega),
    BitVec.extractLsb'_append_extractLsb'_eq_extractLsb' (by omega),
    BitVec.extractLsb'_append_extractLsb'_eq_extractLsb' (by omega),
    BitVec.extractLsb'_eq_self]

/-- Settles O4: at `FW = 32` the positions are the ones `Request.ofRecord` reads. -/
theorem requestRecordHoldsTheRequest : Obligations.RequestRecordHoldsTheRequest := by
  refine ⟨fun r h => ?_, fun _ _ h => ofRecord_toRecord h, toRecord_ofRecord⟩
  have hr : Request.ofRecord 32 (r.toRecord 32) = r := ofRecord_toRecord h
  exact ⟨congrArg Request.op hr, congrArg Request.priority hr, congrArg Request.pf hr,
    congrArg Request.ps hr, congrArg Request.sa hr, congrArg Request.canId hr⟩

/-- Settles O5: each output is read above the ones laid out below it. -/
theorem responseRecordHoldsTheOutputs : Obligations.ResponseRecordHoldsTheOutputs := by
  intro r
  simp (disch := decide) only [Machine.Response.record, BitVec.extractLsb'_append_eq_of_le,
    Nat.reduceSub, BitVec.extractLsb'_append_eq_right, BitVec.extractLsb'_eq_self, and_self]

end Sys2Proof
end

section
/-! PROOFS. The decoder and the encoder agree (spec/30_encoding.md R51, R54), on operations and on
identifier words. -/

namespace Sys2Proof

/-- Settles O1: each code selects its row by computation. -/
theorem operationSelectAlonePicksTheRow : Obligations.OperationSelectAlonePicksTheRow :=
  fun _ _ _ _ _ => ⟨rfl, rfl, rfl, rfl, rfl, rfl, rfl, rfl⟩

/-- An instruction that fits encodes to an input that fits. -/
theorem encode_fits {fw : Nat} {i : Instr} (h : i.fits fw = true) : (encode i).fits fw = true := by
  cases i with
  | enc p f ps sa => exact Laws.EncodingFits.enc p f ps sa fw h
  | dec c => exact Laws.EncodingFits.dec c fw h
  | vfields p f ps sa => exact Laws.EncodingFits.vfields p f ps sa fw h
  | vcanid c => exact Laws.EncodingFits.vcanid c fw h
  | encv p f ps sa => exact Laws.EncodingFits.encv p f ps sa fw h
  | decv c => exact Laws.EncodingFits.decv c fw h
  | reserved6 => exact Laws.EncodingFits.reserved6 fw h
  | reserved7 => exact Laws.EncodingFits.reserved7 fw h
  | canidEncodeImage c => exact Laws.EncodingFits.canidEncodeImage c fw h
  | canidDecodeAccepts c => exact Laws.EncodingFits.canidDecodeAccepts c fw h
  | canidValid c => exact Laws.EncodingFits.canidValid c fw h

/-- An operation encodes to a request, which decodes to it. -/
theorem exists_request_of_isOperation {i : Instr} (h : i.isOperation = true) :
    ∃ r : Request, encode i = .request r ∧ decodeRequest r = i := by
  cases i with
  | canidEncodeImage c | canidDecodeAccepts c | canidValid c => cases h
  | _ => exact ⟨_, rfl, rfl⟩

/-- Settles O3: the record loses nothing of the request (`ofRecord_toRecord`), and the request nothing
of the operation (`exists_request_of_isOperation`). -/
theorem decodingTheEncodedRecordGivesTheOperation :
    Obligations.DecodingTheEncodedRecordGivesTheOperation := by
  intro fw i hop hfits
  obtain ⟨r, hencode, hdecode⟩ := exists_request_of_isOperation hop
  have hr : (Input.request r).fits fw = true := hencode ▸ encode_fits hfits
  refine ⟨r, hencode, hr, ?_⟩
  rw [ofRecord_toRecord hr]
  exact hdecode

/-- A word has no bit under a run of ones exactly when the bits it covers are zero: bit `i` of the part
read is bit `start + i` of the word. -/
theorem and_ones_shiftLeft_eq_zero_iff {w : Nat} (c : BitVec w) (start len : Nat) :
    c &&& (BitVec.allOnes len).setWidth w <<< start = 0#w ↔ c.extractLsb' start len = 0#len := by
  have hlt {i : Nat} : c.getLsbD i = true → i < w := c.lt_of_getLsbD
  simp only [BitVec.eq_of_getLsbD_eq_iff, BitVec.getLsbD_and, BitVec.getLsbD_shiftLeft,
    BitVec.getLsbD_setWidth, BitVec.getLsbD_allOnes, BitVec.getLsbD_extractLsb', BitVec.getLsbD_zero]
  constructor
  · intro h i hi
    have hbit := h (start + i)
    grind
  · intro h i hi
    have hbit := h (i - start)
    grind

/-- `CANID.valid` is bits 31 to 29 zero (spec/30_encoding.md R41). -/
theorem isValidCanId_iff_ceiling {c : Word} : isValidCanId c = true ↔ c.extractLsb' 29 3 = 0#3 :=
  isValidCanId_iff.trans (and_ones_shiftLeft_eq_zero_iff c 29 3)

/-- `CANID.valid` is the range of `VCANID` (spec/41_validation.md R62). -/
theorem isValidCanId_iff_le {c : Word} : isValidCanId c = true ↔ c.toNat ≤ 0x1FFFFFFF := by
  rw [isValidCanId_iff_ceiling, ← BitVec.toNat_inj, BitVec.extractLsb'_toNat,
    Nat.shiftRight_eq_div_pow, BitVec.toNat_ofNat]
  omega

/-- `CANID.encode_image` is `CANID.valid` with bits 25 and 24 zero (spec/30_encoding.md R40). -/
theorem isEncodeImage_iff_isValidCanId {c : Word} :
    isEncodeImage c = true ↔ isValidCanId c = true ∧ c.extractLsb' 24 2 = 0#2 := by
  have hmask : (0xE3000000#32 : Word) = 0xE0000000#32 ||| 0x03000000#32 := rfl
  rw [isEncodeImage_iff, isValidCanId_iff, hmask, BitVec.and_or_distrib_left, BitVec.or_eq_zero_iff]
  exact and_congr_right' (and_ones_shiftLeft_eq_zero_iff c 24 2)

/-- Decoding an identifier word loses no bit of it. -/
theorem encode_decodeIdentifier (c : Word) : encode (decodeIdentifier c) = .identifier c := by
  unfold decodeIdentifier
  split_ifs <;> rfl

/-- An identifier word decodes to a row whose pattern it matches. -/
theorem decodeIdentifier_wellFormed (c : Word) : (decodeIdentifier c).WellFormed := by
  unfold decodeIdentifier
  split_ifs with hi hv
  exacts [hi, hv, rfl]

/-- The three rows an identifier word can decode to, each with what makes it the narrowest. -/
theorem decodeIdentifier_cases (c : Word) :
    (decodeIdentifier c = .canidEncodeImage c ∧ isValidCanId c = true ∧ c.extractLsb' 24 2 = 0#2) ∨
    (decodeIdentifier c = .canidValid c ∧ isValidCanId c = true ∧ c.extractLsb' 24 2 ≠ 0#2) ∨
    (decodeIdentifier c = .canidDecodeAccepts c ∧ ¬ isValidCanId c = true) := by
  have himage := isEncodeImage_iff_isValidCanId (c := c)
  unfold decodeIdentifier
  split_ifs with hi hv
  · exact .inl ⟨rfl, himage.1 hi⟩
  · exact .inr (.inl ⟨rfl, hv, fun h => hi (himage.2 ⟨hv, h⟩)⟩)
  · exact .inr (.inr ⟨rfl, hv⟩)

/-- Settles O6: the ceiling is the bound of `CANID.valid`, and one of the three rows of
`decodeIdentifier_cases` decides the equivalences. -/
theorem identifierWordsDecodeToTheNarrowestFormat :
    Obligations.IdentifierWordsDecodeToTheNarrowestFormat := by
  intro c
  refine ⟨encode_decodeIdentifier c, decodeIdentifier_wellFormed c, ?_⟩
  rw [← isValidCanId_iff_ceiling, ← not_le, ← isValidCanId_iff_le, decode]
  obtain ⟨h, hv, hu⟩ | ⟨h, hv, hu⟩ | ⟨h, hv⟩ := decodeIdentifier_cases c
  · simp [h, hv, hu]
  · simp [h, hv, hu]
  · simp [h, hv]

end Sys2Proof
end

section
/-! PROOFS. The lanes of the identifier word: what packing gives as a sum, what unpacking gives as bit
ranges, and that packing a valid tuple loses nothing (spec/30_encoding.md R42, R43, spec/43_laws.md R69,
R70). -/

namespace Sys2Proof.Machine

/-- The packed identifier is the sum of its masked lanes: no lane reaches into the next. -/
theorem encode_toNat (p f s a : Nat) : (Codec.encode p f s a).toNat =
    p % 8 * 2 ^ 26 + f % 256 * 2 ^ 16 + s % 256 * 2 ^ 8 + a % 256 := by
  have hlow : s % 256 * 2 ^ 8 ||| a % 256 = s % 256 * 2 ^ 8 + a % 256 := by
    rw [Nat.mul_comm, Nat.two_pow_add_eq_or_of_lt (by omega)]
  have hmid : f % 256 * 2 ^ 16 ||| (s % 256 * 2 ^ 8 + a % 256) =
      f % 256 * 2 ^ 16 + (s % 256 * 2 ^ 8 + a % 256) := by
    rw [Nat.mul_comm (f % 256), Nat.two_pow_add_eq_or_of_lt (by omega)]
  have hhigh : p % 8 * 2 ^ 26 ||| (f % 256 * 2 ^ 16 + (s % 256 * 2 ^ 8 + a % 256)) =
      p % 8 * 2 ^ 26 + (f % 256 * 2 ^ 16 + (s % 256 * 2 ^ 8 + a % 256)) := by
    rw [Nat.mul_comm (p % 8), Nat.two_pow_add_eq_or_of_lt (by omega)]
  simp only [Codec.encode, BitVec.toNat_or, placedPriority_toNat, placedPf_toNat, placedPs_toNat,
    placedSa_toNat, Nat.or_assoc, hlow, hmid, hhigh]
  omega

/-- The fields of an identifier word are its bit ranges (spec/30_encoding.md R43). -/
theorem decode_eq (c : Word) : Codec.decode c =
    ⟨c.extractLsb' 26 3, c.extractLsb' 16 8, c.extractLsb' 8 8, c.extractLsb' 0 8⟩ := by
  have hp : extractedPriority c = c.extractLsb' 26 3 := BitVec.eq_of_toNat_eq <| by
    rw [extractedPriority_toNat, BitVec.extractLsb'_toNat, Nat.shiftRight_eq_div_pow]
  have hf : extractedPf c = c.extractLsb' 16 8 := BitVec.eq_of_toNat_eq <| by
    rw [extractedPf_toNat, BitVec.extractLsb'_toNat, Nat.shiftRight_eq_div_pow]
  have hs : extractedPs c = c.extractLsb' 8 8 := BitVec.eq_of_toNat_eq <| by
    rw [extractedPs_toNat, BitVec.extractLsb'_toNat, Nat.shiftRight_eq_div_pow]
  have ha : extractedSa c = c.extractLsb' 0 8 := BitVec.eq_of_toNat_eq <| by
    rw [extractedSa_toNat, BitVec.extractLsb'_toNat, Nat.shiftRight_zero]
  rw [Codec.decode, hp, hf, hs, ha]

/-- Unpacking what was packed masks the four operands (spec/43_laws.md R70). -/
theorem decode_encode_toNat (p f s a : Nat) :
    (Codec.decode (Codec.encode p f s a)).priority.toNat = p % 8 ∧
    (Codec.decode (Codec.encode p f s a)).pf.toNat = f % 256 ∧
    (Codec.decode (Codec.encode p f s a)).ps.toNat = s % 256 ∧
    (Codec.decode (Codec.encode p f s a)).sa.toNat = a % 256 := by
  simp only [Codec.decode, extractedPriority_toNat, extractedPf_toNat, extractedPs_toNat,
    extractedSa_toNat, encode_toNat]
  omega

/-- The packed identifier matches the row `CANID.encode_image` (spec/43_laws.md R72). -/
theorem isEncodeImage_encode (p f s a : Nat) : isEncodeImage (Codec.encode p f s a) = true :=
  isEncodeImage_iff.2 (encode_and_ignored_eq_zero p f s a)

/-- The gate of the identifier is the row `CANID.valid` (spec/41_validation.md R62). -/
theorem validateCanId_pass_iff_isValidCanId {c : Word} :
    Codec.validateCanId c = .pass ↔ isValidCanId c = true :=
  validateCanId_pass_iff.trans isValidCanId_iff_le.symm

/-- The gate of the other direction passes every packed identifier (spec/43_laws.md R76). -/
theorem validateCanId_encode (p f s a : Nat) : Codec.validateCanId (Codec.encode p f s a) = .pass := by
  have himage := isEncodeImage_iff_isValidCanId.1 (isEncodeImage_encode p f s a)
  exact validateCanId_pass_iff_isValidCanId.2 himage.1

end Sys2Proof.Machine
end

section
/-! PROOFS. The response to each operation (spec/30_encoding.md R46, R47), and the outputs it leaves
zero. -/

namespace Sys2Proof.Machine

section Respond
variable {r : Request}

theorem respond_enc (h : r.op = 0#3) :
    respond r = (Answer.packed (Codec.encode r.priority r.pf r.ps r.sa)).response := by
  simp only [respond, answer, h]; rfl

theorem respond_dec (h : r.op = 1#3) :
    respond r = (Answer.unpacked (Codec.decode r.canId)).response := by
  simp only [respond, answer, h]; rfl

theorem respond_vfields (h : r.op = 2#3) :
    respond r = ((Codec.validateFields r.priority r.pf r.ps r.sa).gate .passed).response := by
  simp only [respond, answer, h]; rfl

theorem respond_vcanid (h : r.op = 3#3) :
    respond r = ((Codec.validateCanId r.canId).gate .passed).response := by
  simp only [respond, answer, h]; rfl

theorem respond_encv (h : r.op = 4#3) :
    respond r = ((Codec.validateFields r.priority r.pf r.ps r.sa).gate
      (.packed (Codec.encode r.priority r.pf r.ps r.sa))).response := by
  simp only [respond, answer, h]; rfl

theorem respond_decv (h : r.op = 5#3) :
    respond r = ((Codec.validateCanId r.canId).gate (.unpacked (Codec.decode r.canId))).response := by
  simp only [respond, answer, h]; rfl

end Respond

/-- A response is `OK` without an error, or an error without data (spec/10_state.md R22); the lower bound
is always zero. -/
theorem legal_cases {r : Response} (h : r.legal = true) :
    r.errLo = 0#32 ∧
    ((r.status = 0#2 ∧ r.errField = 0#3 ∧ r.errHi = 0#32) ∨
     (r.status ≠ 0#2 ∧ r.canId = 0#32 ∧ r.priority = 0#3 ∧ r.pf = 0#8 ∧ r.ps = 0#8 ∧ r.sa = 0#8)) := by
  simp only [Response.legal, Response.noError, Response.rangeError, Response.noData, Bool.or_eq_true,
    Bool.and_eq_true, beq_iff_eq] at h
  rcases h with (hok | hrange) | hbad
  · simp [hok]
  · simp [hrange]
  · simp [hbad]

/-- The status of a gated answer says whether the check passed (spec/42_gated.md R67). -/
theorem gate_status {k : Check} {a : Answer} (ha : a.response.status = 0#2) :
    ((k.gate a).response.status = 0#2 ↔ k = .pass) ∧
    ((k.gate a).response.status = 1#2 ↔ ¬ k = .pass) := by
  cases k with
  | pass => simp [ha]
  | outOfRange e => simp [Answer.response, raiseOutOfRange, statusOutOfRange]

/-- The error a gate answers drives no identifier (spec/60_exceptions.md R87). -/
theorem gate_canId {k : Check} {a : Answer} (ha : a.response.canId = 0#32) :
    (k.gate a).response.canId = 0#32 := by
  cases k with
  | pass => exact ha
  | outOfRange e => rfl

/-- No field output is driven. -/
def Response.fieldsZero (r : Response) : Prop :=
  r.priority = 0#3 ∧ r.pf = 0#8 ∧ r.ps = 0#8 ∧ r.sa = 0#8

/-- The error a gate answers drives no field output (spec/60_exceptions.md R87). -/
theorem gate_fieldsZero {k : Check} {a : Answer} (ha : a.response.fieldsZero) :
    (k.gate a).response.fieldsZero := by
  cases k with
  | pass => exact ha
  | outOfRange e => exact ⟨rfl, rfl, rfl, rfl⟩

/-- Only `ENC` and `ENCV` drive `rsp_can_id`. -/
theorem respond_canId_eq_zero {r : Request} (henc : r.op ≠ 0#3) (hencv : r.op ≠ 4#3) :
    (respond r).canId = 0#32 := by
  rcases opCode_cases r.op with h | h | h | h | h | h | h | h
  · exact absurd h henc
  · rw [respond_dec h]; rfl
  · rw [respond_vfields h]; exact gate_canId rfl
  · rw [respond_vcanid h]; exact gate_canId rfl
  · exact absurd h hencv
  · rw [respond_decv h]; exact gate_canId rfl
  · rw [respond_reserved (.inl h)]; rfl
  · rw [respond_reserved (.inr h)]; rfl

/-- Only `DEC` and `DECV` drive the field outputs. -/
theorem respond_fieldsZero {r : Request} (hdec : r.op ≠ 1#3) (hdecv : r.op ≠ 5#3) :
    (respond r).fieldsZero := by
  rcases opCode_cases r.op with h | h | h | h | h | h | h | h
  · rw [respond_enc h]; exact ⟨rfl, rfl, rfl, rfl⟩
  · exact absurd h hdec
  · rw [respond_vfields h]; exact gate_fieldsZero ⟨rfl, rfl, rfl, rfl⟩
  · rw [respond_vcanid h]; exact gate_fieldsZero ⟨rfl, rfl, rfl, rfl⟩
  · rw [respond_encv h]; exact gate_fieldsZero ⟨rfl, rfl, rfl, rfl⟩
  · exact absurd h hdecv
  · rw [respond_reserved (.inl h)]; exact ⟨rfl, rfl, rfl, rfl⟩
  · rw [respond_reserved (.inr h)]; exact ⟨rfl, rfl, rfl, rfl⟩

/-- Settles O26: an `OK` has no error and an error no data (`legal_cases`); the rest is per operation. -/
theorem outputsNotListedAreZero : Obligations.OutputsNotListedAreZero := by
  intro r
  obtain ⟨hlo, hcases⟩ := legal_cases (legal_respond r)
  have hok : (respond r).status = 0#2 → (respond r).errField = 0#3 ∧ (respond r).errHi = 0#32 :=
    fun h => hcases.elim And.right fun herr => absurd h herr.1
  have henc (h : r.op = 0#3) : (respond r).status = 0#2 := by rw [respond_enc h]; rfl
  have hdec (h : r.op = 1#3) : (respond r).status = 0#2 := by rw [respond_dec h]; rfl
  refine ⟨hlo, fun h => ⟨henc h, hok (henc h)⟩, fun h => ⟨hdec h, hok (hdec h)⟩,
    respond_canId_eq_zero, respond_fieldsZero, fun h => ?_, fun _ => ?_, fun _ => ?_, hok⟩
  · rw [respond_reserved h]; exact ⟨rfl, rfl⟩
  · exact hcases.symm.imp (fun ⟨_, hid, _⟩ => hid) And.left
  · exact hcases.symm.imp (fun ⟨_, _, hfields⟩ => hfields) And.left

end Sys2Proof.Machine
end

section
/-! PROOFS. What a transaction drives (spec/30_encoding.md R47, spec/10_state.md R16), and the arrival of
an identifier word (R20). -/

namespace Sys2Proof.Machine

/-- Everything a transaction does: it drives its inputs and adds one response. -/
theorem exec_next {i : Instr} {s t : State} (h : exec i s = .next t) :
    t.req = i.driven s.req ∧ t.program = s.program ∧
    t.results = s.results ++ [respond (i.driven s.req)] := by
  rw [exec_eq, respondWith_next_iff] at h
  subst h
  exact ⟨rfl, rfl, rfl⟩

/-- Settles O22: the inputs after a transaction are `Instr.driven` of those before (`exec_next`). -/
theorem transactionsDriveOnlyTheirInputs : Obligations.TransactionsDriveOnlyTheirInputs := by
  refine ⟨fun i s t h => ?_, fun p f ps sa i s t hi h => ?_, fun c i s t hi h => ?_,
    fun i s t hi h => ?_, fun c i s t hi h => ?_⟩
  all_goals obtain ⟨hreq, hprogram, hresults⟩ := exec_next h
  · exact ⟨hprogram, _, hresults.symm⟩
  · rw [hreq]
    rcases hi with rfl | rfl | rfl <;> rfl
  · rw [hreq]
    rcases hi with rfl | rfl | rfl <;> exact ⟨rfl, rfl, rfl, rfl⟩
  · rw [hreq]
    rcases hi with rfl | rfl <;> rfl
  · rw [hreq]
    rcases hi with rfl | rfl | rfl <;> rfl

/-- Settles O14: every word is unpacked into its bit ranges. -/
theorem anyArrivingWordIsUnpackedUnderDec : Obligations.AnyArrivingWordIsUnpackedUnderDec := by
  intro c s
  refine ⟨_, receiveIdentifier_eq s c, rfl, fun hop => ?_⟩
  rw [respond_dec (r := { s.req with canId := c }) hop, decode_eq]
  exact ⟨rfl, rfl, rfl, rfl, rfl⟩

/-- Settles O15: both operations answer through the same gate, which passes the row's words. -/
theorem arrivingValidWordPassesBothGates : Obligations.ArrivingValidWordPassesBothGates := by
  intro c s
  have hwf : Codec.validateCanId c = .pass ↔ (Instr.canidValid c).WellFormed :=
    validateCanId_pass_iff_isValidCanId
  refine ⟨_, receiveIdentifier_eq s c, rfl, fun hop => ?_⟩
  rw [← hwf]
  rcases hop with hop | hop
  · rw [respond_vcanid (r := { s.req with canId := c }) hop]
    exact gate_status rfl
  · rw [respond_decv (r := { s.req with canId := c }) hop]
    exact gate_status rfl

/-- Under `DEC` and `DECV` a packed identifier is unpacked: it passes the gate. -/
theorem respond_encode {r : Request} (hop : r.op = 1#3 ∨ r.op = 5#3) (p f s a : Nat) :
    respond { r with canId := Codec.encode p f s a } =
      (Answer.unpacked (Codec.decode (Codec.encode p f s a))).response := by
  rcases hop with hop | hop
  · exact respond_dec hop
  · rw [respond_decv (r := { r with canId := Codec.encode p f s a }) hop, validateCanId_encode,
      gate_pass]

/-- Settles O16: unpacking the packed tuple masks it, and masking leaves a valid tuple as it is. -/
theorem arrivingEncodeImageGivesTheTupleBack : Obligations.ArrivingEncodeImageGivesTheTupleBack := by
  refine ⟨fun c s => receiveIdentifier_eq s c, fun p f ps sa r hp hf hs ha hop => ?_⟩
  obtain ⟨hprio, hpf, hps, hsa⟩ := decode_encode_toNat p f ps sa
  rw [respond_encode hop]
  exact ⟨isEncodeImage_encode p f ps sa, rfl,
    hprio.trans (Nat.mod_eq_of_lt (Nat.lt_succ_of_le hp)),
    hpf.trans (Nat.mod_eq_of_lt (Nat.lt_succ_of_le hf)),
    hps.trans (Nat.mod_eq_of_lt (Nat.lt_succ_of_le hs)),
    hsa.trans (Nat.mod_eq_of_lt (Nat.lt_succ_of_le ha))⟩

end Sys2Proof.Machine
end

section
/-! PROOFS. The raw transforms `ENC` and `DEC` (spec/40_pack_unpack.md R57, R59): the complete next
state. -/

namespace Sys2Proof.Machine

/-- The packed identifier written as the sum of its masked lanes. -/
theorem encode_eq_ofNat (p f s a : Nat) : Codec.encode p f s a =
    BitVec.ofNat 32 (p % 8 * 2 ^ 26 + f % 256 * 2 ^ 16 + s % 256 * 2 ^ 8 + a % 256) := by
  rw [← encode_toNat, BitVec.ofNat_toNat, BitVec.setWidth_eq]

/-- Settles O7: the response to code 0 is the packed identifier, which is the sum of its lanes. -/
theorem encAnswersTheMaskedLanes : Obligations.EncAnswersTheMaskedLanes := by
  intro p f ps sa s
  have hrsp : respond ((Instr.enc p f ps sa).driven s.req) =
      (Answer.packed (Codec.encode p f ps sa)).response := respond_enc rfl
  rw [exec_eq, hrsp, encode_eq_ofNat]
  rfl

/-- Settles O8: the response to code 1 is the unpacked fields, which are bit ranges of the word. -/
theorem decAnswersTheFieldBits : Obligations.DecAnswersTheFieldBits := by
  intro c s
  have hrsp : respond ((Instr.dec c).driven s.req) = (Answer.unpacked (Codec.decode c)).response :=
    respond_dec rfl
  rw [exec_eq, hrsp, decode_eq]
  rfl

end Sys2Proof.Machine
end

section
/-! PROOFS. The range checks `VFIELDS` and `VCANID` (spec/41_validation.md R60 to R63): the offender each
validator names, and the complete next state. -/

namespace Sys2Proof.Machine

section FirstOffender
variable {p f s a : Nat}

/-- A priority above 7 is reported whatever the other fields are. -/
theorem validateFields_of_priority (hp : 7 < p) :
    Codec.validateFields p f s a = .outOfRange ErrField.priority.error := if_pos hp

theorem validateFields_of_pduFormat (hp : p ≤ 7) (hf : 255 < f) :
    Codec.validateFields p f s a = .outOfRange ErrField.pduFormat.error :=
  (if_neg hp.not_gt).trans (if_pos hf)

theorem validateFields_of_pduSpecific (hp : p ≤ 7) (hf : f ≤ 255) (hs : 255 < s) :
    Codec.validateFields p f s a = .outOfRange ErrField.pduSpecific.error :=
  (if_neg hp.not_gt).trans ((if_neg hf.not_gt).trans (if_pos hs))

theorem validateFields_of_sourceAddress (hp : p ≤ 7) (hf : f ≤ 255) (hs : s ≤ 255) (ha : 255 < a) :
    Codec.validateFields p f s a = .outOfRange ErrField.sourceAddress.error :=
  (if_neg hp.not_gt).trans ((if_neg hf.not_gt).trans ((if_neg hs.not_gt).trans (if_pos ha)))

end FirstOffender

/-- The gate of the identifier passes the words with bits 31 to 29 zero (spec/30_encoding.md R41). -/
theorem validateCanId_pass_iff_ceiling {c : Word} :
    Codec.validateCanId c = .pass ↔ c.extractLsb' 29 3 = 0#3 :=
  validateCanId_pass_iff_isValidCanId.trans isValidCanId_iff_ceiling

theorem validateCanId_of_ceiling {c : Word} (h : c.extractLsb' 29 3 ≠ 0#3) :
    Codec.validateCanId c = .outOfRange ErrField.canId.error :=
  have hfail : ¬ c.toNat ≤ 0x1FFFFFFF :=
    mt validateCanId_pass_iff.2 (mt validateCanId_pass_iff_ceiling.1 h)
  if_pos (not_le.1 hfail)

/-- The lower bound of every response is zero (spec/30_encoding.md R50). -/
theorem respond_errLo (r : Request) : (respond r).errLo = 0#32 := (legal_cases (legal_respond r)).1

/-- The two checks drive no data output (spec/41_validation.md R61, R63). -/
theorem respond_check_noData {r : Request} (h : r.op = 2#3 ∨ r.op = 3#3) :
    (respond r).canId = 0#32 ∧ (respond r).fieldsZero := by
  have hop : r.op ≠ 0#3 ∧ r.op ≠ 4#3 ∧ r.op ≠ 1#3 ∧ r.op ≠ 5#3 := by
    rcases h with h | h <;> simp [h]
  obtain ⟨henc, hencv, hdec, hdecv⟩ := hop
  exact ⟨respond_canId_eq_zero henc hencv, respond_fieldsZero hdec hdecv⟩

/-- Settles O9: code 2 answers through the gate of `validateFields`, and each clause fixes what that
check says. -/
theorem vfieldsReportsTheFirstOffender : Obligations.VfieldsReportsTheFirstOffender := by
  intro p f ps sa s
  have hrsp : respond ((Instr.vfields p f ps sa).driven s.req) =
      ((Codec.validateFields p f ps sa).gate .passed).response := respond_vfields rfl
  obtain ⟨hid, hprio, hpf, hps, hsa⟩ :=
    respond_check_noData (r := (Instr.vfields p f ps sa).driven s.req) (.inl rfl)
  refine ⟨_, exec_eq _ s, respond_errLo _, hid, hprio, hpf, hps, hsa, ?_⟩
  rw [hrsp]
  refine ⟨fun hp => ?_, fun ⟨hp, hf⟩ => ?_, fun ⟨hp, hf, hs⟩ => ?_, fun ⟨hp, hf, hs, ha⟩ => ?_,
    fun hall => ?_⟩
  · rw [validateFields_of_priority hp]; exact ⟨rfl, rfl, rfl⟩
  · rw [validateFields_of_pduFormat hp hf]; exact ⟨rfl, rfl, rfl⟩
  · rw [validateFields_of_pduSpecific hp hf hs]; exact ⟨rfl, rfl, rfl⟩
  · rw [validateFields_of_sourceAddress hp hf hs ha]; exact ⟨rfl, rfl, rfl⟩
  · rw [validateFields_pass_iff.2 hall]; exact ⟨rfl, rfl, rfl⟩

/-- Settles O10: code 3 answers through the gate of `validateCanId`, which passes exactly the words with
the ceiling bits zero. -/
theorem vcanidRejectsExactlyTheCeilingBits : Obligations.VcanidRejectsExactlyTheCeilingBits := by
  intro c s
  have hrsp : respond ((Instr.vcanid c).driven s.req) =
      ((Codec.validateCanId c).gate .passed).response := respond_vcanid rfl
  obtain ⟨hid, hprio, hpf, hps, hsa⟩ :=
    respond_check_noData (r := (Instr.vcanid c).driven s.req) (.inr rfl)
  refine ⟨_, exec_eq _ s, respond_errLo _, hid, hprio, hpf, hps, hsa, fun hset => ?_, fun hzero => ?_⟩
  · rw [hrsp, validateCanId_of_ceiling hset]; exact ⟨rfl, rfl, rfl⟩
  · rw [hrsp, validateCanId_pass_iff_ceiling.2 hzero]; exact ⟨rfl, rfl, rfl⟩

end Sys2Proof.Machine
end

section
/-! PROOFS. The gated transforms `ENCV` and `DECV` (spec/42_gated.md R64 to R66): the complete next state,
and that each is its validator, then its raw counterpart. -/

namespace Sys2Proof.Machine

/-- Packing a tuple whose fields are in range loses nothing: the lanes are not masked. -/
theorem encode_toNat_of_inRange {p f s a : Nat} (h : p ≤ 7 ∧ f ≤ 255 ∧ s ≤ 255 ∧ a ≤ 255) :
    (Codec.encode p f s a).toNat = p * 2 ^ 26 + f * 2 ^ 16 + s * 2 ^ 8 + a := by
  rw [encode_toNat]
  omega

/-- Settles O11: code 4 answers through the gate of `validateFields`, which lets the packed identifier
through when every field is in range. -/
theorem encvPacksOnlyWhatPasses : Obligations.EncvPacksOnlyWhatPasses := by
  intro p f ps sa s
  have hrsp : respond ((Instr.encv p f ps sa).driven s.req) =
      ((Codec.validateFields p f ps sa).gate (.packed (Codec.encode p f ps sa))).response :=
    respond_encv rfl
  obtain ⟨hprio, hpf, hps, hsa⟩ : (respond ((Instr.encv p f ps sa).driven s.req)).fieldsZero := by
    rw [hrsp]; exact gate_fieldsZero ⟨rfl, rfl, rfl, rfl⟩
  refine ⟨_, exec_eq _ s, respond_errLo _, hprio, hpf, hps, hsa, ?_⟩
  rw [hrsp]
  refine ⟨fun hp => ?_, fun ⟨hp, hf⟩ => ?_, fun ⟨hp, hf, hs⟩ => ?_, fun ⟨hp, hf, hs, ha⟩ => ?_,
    fun hall => ?_⟩
  · rw [validateFields_of_priority hp]; exact ⟨rfl, rfl, rfl, rfl⟩
  · rw [validateFields_of_pduFormat hp hf]; exact ⟨rfl, rfl, rfl, rfl⟩
  · rw [validateFields_of_pduSpecific hp hf hs]; exact ⟨rfl, rfl, rfl, rfl⟩
  · rw [validateFields_of_sourceAddress hp hf hs ha]; exact ⟨rfl, rfl, rfl, rfl⟩
  · rw [validateFields_pass_iff.2 hall]; exact ⟨rfl, rfl, rfl, encode_toNat_of_inRange hall⟩

/-- Settles O12: code 5 answers through the gate of `validateCanId`, which lets the unpacked fields, bit
ranges of the word, through when the ceiling bits are zero. -/
theorem decvUnpacksOnlyWhatPasses : Obligations.DecvUnpacksOnlyWhatPasses := by
  intro c s
  have hrsp : respond ((Instr.decv c).driven s.req) =
      ((Codec.validateCanId c).gate (.unpacked (Codec.decode c))).response := respond_decv rfl
  have hid : (respond ((Instr.decv c).driven s.req)).canId = 0#32 := by
    rw [hrsp]; exact gate_canId rfl
  refine ⟨_, exec_eq _ s, respond_errLo _, hid, fun hset => ?_, fun hzero => ?_⟩
  · rw [hrsp, validateCanId_of_ceiling hset]; exact ⟨rfl, rfl, rfl, rfl, rfl, rfl, rfl⟩
  · rw [hrsp, validateCanId_pass_iff_ceiling.2 hzero, decode_eq]
    exact ⟨rfl, rfl, rfl, rfl, rfl, rfl, rfl⟩

/-- A gated answer takes two transactions: the check alone, then, if it answered `OK`, the answer itself
(spec/42_gated.md R66). -/
theorem gate_response_eq_ite (k : Check) (a : Answer) : (k.gate a).response =
    if (k.gate .passed).response.status = 0#2 then a.response else (k.gate .passed).response := by
  have hstatus : (k.gate .passed).response.status = 0#2 ↔ k = .pass := (gate_status rfl).1
  cases k with
  | pass => exact (if_pos (hstatus.2 rfl)).symm
  | outOfRange e => exact (if_neg (mt hstatus.1 nofun)).symm

/-- A check that fails lets no data through (spec/42_gated.md R67). -/
theorem gate_noData {k : Check} (h : k ≠ .pass) (a : Answer) : (k.gate a).response.noData = true := by
  cases k with
  | pass => exact absurd rfl h
  | outOfRange e => rfl

/-- Placing an operand masks it, so masking it before changes nothing (spec/43_laws.md R74). -/
theorem placed_and_mask (v mask shift : Nat) : placed (v &&& mask) mask shift = placed v mask shift := by
  rw [placed, placed, Nat.and_assoc, Nat.and_self]

/-- Packing masks each operand (spec/43_laws.md R74). -/
theorem encode_and_masks (p f s a : Nat) :
    Codec.encode (p &&& 0x7) (f &&& 0xFF) (s &&& 0xFF) (a &&& 0xFF) = Codec.encode p f s a := by
  simp only [Codec.encode, placedPriority, placedPf, placedPs, placedSa, placed_and_mask]

/-- `ENC`, `VFIELDS` and `ENCV` on the same operands. -/
theorem respond_fieldOperations (r : Request) :
    respond { r with op := 0#3 } = (Answer.packed (Codec.encode r.priority r.pf r.ps r.sa)).response ∧
    respond { r with op := 2#3 } =
      ((Codec.validateFields r.priority r.pf r.ps r.sa).gate .passed).response ∧
    respond { r with op := 4#3 } = ((Codec.validateFields r.priority r.pf r.ps r.sa).gate
      (.packed (Codec.encode r.priority r.pf r.ps r.sa))).response :=
  ⟨respond_enc rfl, respond_vfields rfl, respond_encv rfl⟩

/-- `DEC`, `VCANID` and `DECV` on the same identifier word. -/
theorem respond_identifierOperations (r : Request) :
    respond { r with op := 1#3 } = (Answer.unpacked (Codec.decode r.canId)).response ∧
    respond { r with op := 3#3 } = ((Codec.validateCanId r.canId).gate .passed).response ∧
    respond { r with op := 5#3 } =
      ((Codec.validateCanId r.canId).gate (.unpacked (Codec.decode r.canId))).response :=
  ⟨respond_dec rfl, respond_vcanid rfl, respond_decv rfl⟩

/-- Settles O39: a validator and its gated operation answer through one gate, which lets the raw answer
through when the check passes and no data when it fails. -/
theorem gatedIsValidatorThenRaw : Obligations.GatedIsValidatorThenRaw := by
  refine ⟨fun r hpass => ?_, fun r hpass => ?_, fun r => ?_, fun r => ?_, fun r hfail => ?_,
    fun r hfail => ?_⟩
  · obtain ⟨henc, hvfields, hencv⟩ := respond_fieldOperations r
    rw [hvfields, hencv, henc, hpass]
    exact ⟨rfl, rfl⟩
  · obtain ⟨hdec, hvcanid, hdecv⟩ := respond_identifierOperations r
    rw [hvcanid, hdecv, hdec, hpass]
    exact ⟨rfl, rfl, rfl, rfl, rfl⟩
  · obtain ⟨henc, hvfields, hencv⟩ := respond_fieldOperations r
    rw [hencv, hvfields, henc]
    exact gate_response_eq_ite _ _
  · obtain ⟨hdec, hvcanid, hdecv⟩ := respond_identifierOperations r
    rw [hdecv, hvcanid, hdec]
    exact gate_response_eq_ite _ _
  · obtain ⟨henc, hvfields, hencv⟩ := respond_fieldOperations r
    rw [henc, hvfields, hencv, encode_and_masks]
    exact ⟨rfl, rfl, (gate_status rfl).2.2 hfail, (gate_status rfl).2.2 hfail, gate_noData hfail _⟩
  · obtain ⟨hdec, hvcanid, hdecv⟩ := respond_identifierOperations r
    rw [hdec, hvcanid, hdecv]
    exact ⟨rfl, rfl, rfl, rfl, rfl, (gate_status rfl).2.2 hfail, (gate_status rfl).2.2 hfail,
      gate_noData hfail _⟩

end Sys2Proof.Machine
end

section
/-! PROOFS. The identifier word as its layout (spec/30_encoding.md R38): bits 31 to 29, priority, bits 25
and 24, PDU Format, PDU Specific, Source Address. Every word is one, masks act part by part, and the two
transforms read and write the four fields alone, so the laws of the codec compare parts. -/

namespace Sys2Proof.Machine

/-- The word with ceiling bits `t`, unoccupied bits `u` and the four fields in their places
(spec/30_encoding.md R38, R40, R41). -/
def layout (t : BitVec 3) (p : Prio) (u : BitVec 2) (f s a : Byte) : Word :=
  t ++ p ++ u ++ f ++ s ++ a

section Layout
variable (t t' : BitVec 3) (p p' : Prio) (u u' : BitVec 2) (f f' s s' a a' : Byte)

/-- Every word has a layout: its parts are its own bit ranges. -/
theorem layout_extractLsb' (c : Word) :
    layout (c.extractLsb' 29 3) (c.extractLsb' 26 3) (c.extractLsb' 24 2) (c.extractLsb' 16 8)
      (c.extractLsb' 8 8) (c.extractLsb' 0 8) = c := by
  simp (disch := decide) only [layout, BitVec.extractLsb'_append_extractLsb'_eq_extractLsb',
    BitVec.extractLsb'_eq_self]

theorem exists_layout (c : Word) : ∃ t p u f s a, c = layout t p u f s a :=
  ⟨_, _, _, _, _, _, (layout_extractLsb' c).symm⟩

/-- Each part is read back at its place. -/
theorem extractLsb'_layout :
    (layout t p u f s a).extractLsb' 29 3 = t ∧ (layout t p u f s a).extractLsb' 26 3 = p ∧
    (layout t p u f s a).extractLsb' 24 2 = u ∧ (layout t p u f s a).extractLsb' 16 8 = f ∧
    (layout t p u f s a).extractLsb' 8 8 = s ∧ (layout t p u f s a).extractLsb' 0 8 = a := by
  simp (disch := decide) only [layout, BitVec.extractLsb'_append_eq_of_le, Nat.reduceSub,
    BitVec.extractLsb'_append_eq_right, BitVec.extractLsb'_eq_self, and_self]

@[simp] theorem layout_inj : layout t p u f s a = layout t' p' u' f' s' a' ↔
    t = t' ∧ p = p' ∧ u = u' ∧ f = f' ∧ s = s' ∧ a = a' := by
  constructor
  · intro h
    obtain ⟨ht, hp, hu, hf, hs, ha⟩ := extractLsb'_layout t p u f s a
    rw [h] at ht hp hu hf hs ha
    obtain ⟨ht', hp', hu', hf', hs', ha'⟩ := extractLsb'_layout t' p' u' f' s' a'
    exact ⟨ht.symm.trans ht', hp.symm.trans hp', hu.symm.trans hu', hf.symm.trans hf',
      hs.symm.trans hs', ha.symm.trans ha'⟩
  · rintro ⟨rfl, rfl, rfl, rfl, rfl, rfl⟩
    rfl

@[simp] theorem layout_and : layout t p u f s a &&& layout t' p' u' f' s' a' =
    layout (t &&& t') (p &&& p') (u &&& u') (f &&& f') (s &&& s') (a &&& a') := by
  rw [layout, layout, BitVec.and_append (w := 3 + 3 + 2 + 8 + 8)]
  simp only [layout, BitVec.and_append]

theorem layout_or : layout t p u f s a ||| layout t' p' u' f' s' a' =
    layout (t ||| t') (p ||| p') (u ||| u') (f ||| f') (s ||| s') (a ||| a') := by
  rw [layout, layout, BitVec.or_append (w := 3 + 3 + 2 + 8 + 8)]
  simp only [layout, BitVec.or_append]

theorem layout_xor : layout t p u f s a ^^^ layout t' p' u' f' s' a' =
    layout (t ^^^ t') (p ^^^ p') (u ^^^ u') (f ^^^ f') (s ^^^ s') (a ^^^ a') := by
  rw [layout, layout, BitVec.xor_append (w := 3 + 3 + 2 + 8 + 8)]
  simp only [layout, BitVec.xor_append]

/-- Unpacking reads the fields and ignores the other five bits. -/
@[simp] theorem decode_layout : Codec.decode (layout t p u f s a) = ⟨p, f, s, a⟩ := by
  obtain ⟨-, hp, -, hf, hs, ha⟩ := extractLsb'_layout t p u f s a
  rw [decode_eq, hp, hf, hs, ha]

end Layout

section Masks
variable (t : BitVec 3) (p : Prio) (u : BitVec 2) (f s a : Byte)

/-- The mask of the occupied bits (spec/30_encoding.md R39) clears the other five. -/
theorem layout_and_occupied :
    layout t p u f s a &&& 0x1CFFFFFF#32 = layout 0#3 p 0#2 f s a := by
  have hmask : (0x1CFFFFFF#32 : Word) =
      layout 0#3 (.allOnes 3) 0#2 (.allOnes 8) (.allOnes 8) (.allOnes 8) := rfl
  simp only [hmask, layout_and, BitVec.and_allOnes, BitVec.and_zero]

/-- The mask of the valid CanIds (spec/43_laws.md R81) keeps the words with the ceiling bits zero. -/
theorem layout_and_idMax_eq_iff :
    layout t p u f s a &&& 0x1FFFFFFF#32 = layout t p u f s a ↔ t = 0#3 := by
  have hmask : (0x1FFFFFFF#32 : Word) =
      layout 0#3 (.allOnes 3) (.allOnes 2) (.allOnes 8) (.allOnes 8) (.allOnes 8) := rfl
  simp only [hmask, layout_and, layout_inj, BitVec.and_allOnes, BitVec.and_zero, and_true, eq_comm]

theorem layout_and_ceiling_eq_zero_iff :
    layout t p u f s a &&& 0xE0000000#32 = 0#32 ↔ t = 0#3 := by
  obtain ⟨ht, -⟩ := extractLsb'_layout t p u f s a
  rw [← isValidCanId_iff, isValidCanId_iff_ceiling, ht]

theorem layout_and_unoccupied_eq_zero_iff :
    layout t p u f s a &&& 0x03000000#32 = 0#32 ↔ u = 0#2 := by
  obtain ⟨-, -, hu, -⟩ := extractLsb'_layout t p u f s a
  exact (and_ones_shiftLeft_eq_zero_iff _ 24 2).trans (by rw [hu])

/-- The mask of the image of `encode` (spec/43_laws.md R72) is the ceiling and the unoccupied bits. -/
theorem layout_and_ignored_eq_zero_iff :
    layout t p u f s a &&& 0xE3000000#32 = 0#32 ↔ t = 0#3 ∧ u = 0#2 := by
  have hmask : (0xE3000000#32 : Word) = 0xE0000000#32 ||| 0x03000000#32 := rfl
  rw [hmask, BitVec.and_or_distrib_left, BitVec.or_eq_zero_iff, layout_and_ceiling_eq_zero_iff,
    layout_and_unoccupied_eq_zero_iff]

/-- The valid CanIds are the layouts with the ceiling bits zero (spec/30_encoding.md R41). -/
theorem layout_le_idMax_iff : (layout t p u f s a).toNat ≤ 0x1FFFFFFF ↔ t = 0#3 := by
  rw [← isValidCanId_iff_le, isValidCanId_iff, layout_and_ceiling_eq_zero_iff]

end Masks

/-- Packing writes each operand, cut to its width, in its place and leaves the other bits zero
(spec/43_laws.md R69): the image and the first round trip determine all six parts. -/
theorem encode_eq_layout (p f s a : Nat) : Codec.encode p f s a =
    layout 0#3 (BitVec.ofNat 3 p) 0#2 (BitVec.ofNat 8 f) (BitVec.ofNat 8 s) (BitVec.ofNat 8 a) := by
  have hignored := encode_and_ignored_eq_zero p f s a
  have hfields := decode_encode_toNat p f s a
  obtain ⟨t, q, u, g, v, b, h⟩ := exists_layout (Codec.encode p f s a)
  rw [h, layout_and_ignored_eq_zero_iff] at hignored
  rw [h, decode_layout] at hfields
  obtain ⟨hq, hg, hv, hb⟩ := hfields
  rw [h, layout_inj]
  exact ⟨hignored.1, BitVec.eq_of_toNat_eq hq, hignored.2, BitVec.eq_of_toNat_eq hg,
    BitVec.eq_of_toNat_eq hv, BitVec.eq_of_toNat_eq hb⟩

/-- What `ENC` packs from the field outputs of a response (spec/43_laws.md R71). -/
def J1939Fields.packed (d : J1939Fields) : Word :=
  Codec.encode d.priority.toNat d.pf.toNat d.ps.toNat d.sa.toNat

theorem packed_eq_layout (d : J1939Fields) :
    d.packed = layout 0#3 d.priority 0#2 d.pf d.ps d.sa := by
  simp only [J1939Fields.packed, encode_eq_layout, BitVec.ofNat_toNat, BitVec.setWidth_eq]

/-- Unpacking what was packed at the fields' own widths loses nothing (spec/43_laws.md R70). -/
theorem decode_packed (d : J1939Fields) : Codec.decode d.packed = d := by
  rw [packed_eq_layout, decode_layout]

/-- Packing what was unpacked clears the five ignored bits (spec/43_laws.md R71). -/
theorem packed_decode (c : Word) : (Codec.decode c).packed = c &&& 0x1CFFFFFF#32 := by
  obtain ⟨t, p, u, f, s, a, rfl⟩ := exists_layout c
  rw [decode_layout, packed_eq_layout, layout_and_occupied]

/-- The words without one of the five ignored bits are those the occupied mask keeps
(spec/43_laws.md R72). -/
theorem and_ignored_eq_zero_iff (c : Word) :
    c &&& 0xE3000000#32 = 0#32 ↔ c &&& 0x1CFFFFFF#32 = c := by
  obtain ⟨t, p, u, f, s, a, rfl⟩ := exists_layout c
  rw [layout_and_ignored_eq_zero_iff, layout_and_occupied, layout_inj]
  simp only [true_and, and_true, eq_comm]

/-- The round trip gives a word back exactly when it has none of the five ignored bits
(spec/43_laws.md R71). -/
theorem packed_decode_eq_iff (c : Word) :
    (Codec.decode c).packed = c ↔ c &&& 0xE3000000#32 = 0#32 := by
  rw [packed_decode, and_ignored_eq_zero_iff]

end Sys2Proof.Machine
end

section
/-! PROOFS. Lanes, masking and the round trips (spec/43_laws.md R69 to R71, R74, R77). -/

namespace Sys2Proof.Machine

/-- Bit by bit, the packed word holds one bit of one operand, or zero. -/
theorem encode_getLsbD (p f s a i : Nat) : (Codec.encode p f s a).getLsbD i =
    (if i < 8 then a.testBit i else if i < 16 then s.testBit (i - 8)
     else if i < 24 then f.testBit (i - 16) else if i < 26 then false
     else if i < 29 then p.testBit (i - 26) else false) := by
  rw [encode_eq_layout, layout]
  simp only [BitVec.getLsbD_append, BitVec.getLsbD_ofNat, Nat.zero_testBit]
  grind

/-- Settles O29: packing writes, and unpacking reads, the parts of a layout. -/
theorem lanesAreIndependent : Obligations.LanesAreIndependent := by
  refine ⟨fun p f s a i _ => encode_getLsbD p f s a i, encode_toNat, fun p f s a => ?_,
    fun p f s a => ?_, fun c d => ?_⟩
  · simp only [encode_eq_layout, layout_xor, BitVec.xor_zero, BitVec.zero_xor]
  · simp only [encode_eq_layout, layout_or, BitVec.or_zero, BitVec.zero_or]
  · obtain ⟨t, p, u, f, s, a, rfl⟩ := exists_layout c
    obtain ⟨t', p', u', f', s', a', rfl⟩ := exists_layout d
    have hprio : (0x1C000000#32 : Word) = layout 0#3 (.allOnes 3) 0#2 0#8 0#8 0#8 := rfl
    have hpf : (0x00FF0000#32 : Word) = layout 0#3 0#3 0#2 (.allOnes 8) 0#8 0#8 := rfl
    have hps : (0x0000FF00#32 : Word) = layout 0#3 0#3 0#2 0#8 (.allOnes 8) 0#8 := rfl
    have hsa : (0x000000FF#32 : Word) = layout 0#3 0#3 0#2 0#8 0#8 (.allOnes 8) := rfl
    simp only [hprio, hpf, hps, hsa, layout_and, layout_inj, decode_layout, BitVec.and_allOnes,
      BitVec.and_zero, true_and, and_true, imp_self]

/-- The valid tuples are those that masking keeps (spec/43_laws.md R81). -/
theorem inRange_iff_mod {p f s a : Nat} : (p ≤ 7 ∧ f ≤ 255 ∧ s ≤ 255 ∧ a ≤ 255) ↔
    p % 8 = p ∧ f % 256 = f ∧ s % 256 = s ∧ a % 256 = a := by
  omega

/-- Settles O30: masking is reduction modulo 8 or 256 (`decode_encode_toNat`), which keeps a valid
tuple. -/
theorem decodingTheEncodedTupleMasksIt : Obligations.DecodingTheEncodedTupleMasksIt := by
  refine ⟨fun p f s a hp hf hs ha => ?_, fun p f s a => ?_⟩
  · obtain ⟨hp, hf, hs, ha⟩ := inRange_iff_mod.1 ⟨hp, hf, hs, ha⟩
    have h := decode_encode_toNat p f s a
    rwa [hp, hf, hs, ha] at h
  · rw [and_prioMask, and_byteMask, and_byteMask, and_byteMask]
    exact decode_encode_toNat p f s a

/-- Settles O31: the round trip clears the five ignored bits (`packed_decode`), and gives
back the words that have none of them (`packed_decode_eq_iff`). -/
theorem encodingTheDecodedWordDropsFiveBits : Obligations.EncodingTheDecodedWordDropsFiveBits :=
  fun c => ⟨packed_decode c, packed_decode_eq_iff c⟩

/-- Cutting to a width sees the remainder alone. -/
theorem ofNat_eq_iff_mod (w x y : Nat) :
    BitVec.ofNat w x = BitVec.ofNat w y ↔ x % 2 ^ w = y % 2 ^ w := by
  rw [← BitVec.toNat_inj, BitVec.toNat_ofNat, BitVec.toNat_ofNat]

/-- Packing sees exactly the masked operands (spec/43_laws.md R73, R74). -/
theorem encode_eq_encode_iff (p f s a p' f' s' a' : Nat) :
    Codec.encode p f s a = Codec.encode p' f' s' a' ↔
      p % 8 = p' % 8 ∧ f % 256 = f' % 256 ∧ s % 256 = s' % 256 ∧ a % 256 = a' % 256 := by
  simp only [encode_eq_layout, layout_inj, true_and, ofNat_eq_iff_mod, Nat.reducePow]

/-- Settles O34: two tuples that are equal modulo 8 and 256 are packed alike (`encode_eq_encode_iff`). -/
theorem encodeIgnoresWhatMaskingRemoves : Obligations.EncodeIgnoresWhatMaskingRemoves := by
  refine ⟨fun p f s a => (encode_and_masks p f s a).symm, fun p f s a k => ?_⟩
  simp only [encode_eq_encode_iff, Nat.add_mul_mod_self_left, and_self]

/-- Settles O36: a packed identifier has none of the five ignored bits, and the fields come back from any
word packed from them (`decode_packed`). -/
theorem secondRoundTripLosesNothing : Obligations.SecondRoundTripLosesNothing := by
  refine ⟨?_, ?_⟩
  · rintro p f s a d rfl
    exact (packed_decode_eq_iff _).2 (encode_and_ignored_eq_zero p f s a)
  · rintro c d rfl
    exact decode_packed _

end Sys2Proof.Machine
end

section
/-! PROOFS. The image of `encode`, and which words decode alike (spec/43_laws.md R72, R73). -/

namespace Sys2Proof.Machine

/-- The image of `encode`: a word without an ignored bit is packed from its own fields. -/
theorem exists_encode_iff (w : Word) :
    (∃ p f s a : Nat, Codec.encode p f s a = w) ↔ w &&& 0xE3000000#32 = 0#32 := by
  constructor
  · rintro ⟨p, f, s, a, rfl⟩
    exact encode_and_ignored_eq_zero p f s a
  · intro h
    exact ⟨_, _, _, _, (packed_decode_eq_iff w).2 h⟩

/-- The image of `encode`, listed by the fields at their own widths. -/
theorem setOf_exists_encode_eq_range :
    {w : Word | ∃ p f s a : Nat, Codec.encode p f s a = w} =
      Set.range fun x : Prio × Byte × Byte × Byte => layout 0#3 x.1 0#2 x.2.1 x.2.2.1 x.2.2.2 := by
  ext w
  constructor
  · rintro ⟨p, f, s, a, rfl⟩
    exact ⟨(_, _, _, _), (encode_eq_layout p f s a).symm⟩
  · rintro ⟨x, rfl⟩
    exact ⟨_, _, _, _, packed_eq_layout ⟨x.1, x.2.1, x.2.2.1, x.2.2.2⟩⟩

theorem natCard_bitVec (w : Nat) : Nat.card (BitVec w) = 2 ^ w := by
  rw [Nat.card_eq_fintype_card, ← FinEnum.card_eq_fintypeCard, FinEnum.card_bitVec]

/-- 2^3 priorities and three times 2^8 bytes, each tuple with its own layout. -/
theorem ncard_setOf_exists_encode :
    Set.ncard {w : Word | ∃ p f s a : Nat, Codec.encode p f s a = w} = 2 ^ 27 := by
  rw [setOf_exists_encode_eq_range, Set.ncard_range_of_injective]
  · simp only [Nat.card_prod, natCard_bitVec, Nat.reducePow, Nat.reduceMul]
  · rintro ⟨p, f, s, a⟩ ⟨p', f', s', a'⟩ h
    simpa using h

/-- `rsp_can_id` is zero or a packed identifier (spec/10_state.md R18). -/
theorem respond_canId_and_ignored_eq_zero (r : Request) :
    (respond r).canId &&& 0xE3000000#32 = 0#32 := by
  have hencode := encode_and_ignored_eq_zero r.priority r.pf r.ps r.sa
  by_cases henc : r.op = 0#3
  · rw [respond_enc henc]; exact hencode
  by_cases hencv : r.op = 4#3
  · rw [respond_encv hencv]
    obtain h | ⟨e, h⟩ := validateFields_cases r.priority r.pf r.ps r.sa
    · rw [h]; exact hencode
    · rw [h]; exact BitVec.zero_and
  · rw [respond_canId_eq_zero henc hencv]; rfl

/-- Settles O32: the image is the words without an ignored bit (`exists_encode_iff`); 0x1FFFFFFF is a
valid CanId outside it. -/
theorem imageOfEncode : Obligations.ImageOfEncode := by
  refine ⟨exists_encode_iff, fun w => (and_ignored_eq_zero_iff w).trans eq_comm,
    ncard_setOf_exists_encode, rfl, rfl, fun p f s a => ?_, ⟨0x1FFFFFFF#32, le_rfl, ?_⟩, fun r => ?_⟩
  · rw [encode_toNat]; omega
  · intro p f s a h
    exact absurd ((exists_encode_iff _).1 ⟨p, f, s, a, h⟩) (by decide)
  · exact respond_canId_and_ignored_eq_zero r

/-- The layout as R73's clauses write it, with the three bytes read as one range. -/
theorem append_extractLsb'_eq_layout (t : BitVec 3) (u : BitVec 2) (c : Word) :
    (t ++ c.extractLsb' 26 3 ++ u ++ c.extractLsb' 0 24 : BitVec 32) =
      layout t (c.extractLsb' 26 3) u (c.extractLsb' 16 8) (c.extractLsb' 8 8) (c.extractLsb' 0 8) := by
  have hdata : c.extractLsb' 0 24 = c.extractLsb' 16 8 ++ c.extractLsb' 8 8 ++ c.extractLsb' 0 8 := by
    simp (disch := decide) only [BitVec.extractLsb'_append_extractLsb'_eq_extractLsb']
  rw [hdata, layout]
  simp only [BitVec.append_assoc, BitVec.cast_eq]

/-- The words that decode like `c` differ from it in the five ignored bits (spec/43_laws.md R73). -/
theorem decode_eq_decode_iff (c d : Word) : Codec.decode d = Codec.decode c ↔
    ∃ (t : BitVec 3) (u : BitVec 2),
      d = (t ++ c.extractLsb' 26 3 ++ u ++ c.extractLsb' 0 24 : BitVec 32) := by
  simp only [append_extractLsb'_eq_layout]
  obtain ⟨t, p, u, f, s, a, rfl⟩ := exists_layout d
  rw [decode_layout, decode_eq]
  simp

/-- The valid CanIds among them are those with the ceiling bits zero. -/
theorem le_idMax_and_decode_eq_iff {c : Word} (d : Word) :
    (d.toNat ≤ 0x1FFFFFFF ∧ Codec.decode d = Codec.decode c) ↔
      ∃ u : BitVec 2, d = (0#3 ++ c.extractLsb' 26 3 ++ u ++ c.extractLsb' 0 24 : BitVec 32) := by
  simp only [append_extractLsb'_eq_layout]
  obtain ⟨t, p, u, f, s, a, rfl⟩ := exists_layout d
  rw [layout_le_idMax_iff, decode_layout, decode_eq]
  simp

/-- The fields unpacked from any word are in range by their widths (spec/43_laws.md R76). -/
theorem decode_inRange (c : Word) :
    (Codec.decode c).priority.toNat ≤ 7 ∧ (Codec.decode c).pf.toNat ≤ 255 ∧
    (Codec.decode c).ps.toNat ≤ 255 ∧ (Codec.decode c).sa.toNat ≤ 255 :=
  ⟨Nat.le_of_lt_succ (BitVec.isLt _), Nat.le_of_lt_succ (BitVec.isLt _),
    Nat.le_of_lt_succ (BitVec.isLt _), Nat.le_of_lt_succ (BitVec.isLt _)⟩

/-- Settles O33: a word of the image is packed from its own fields (`packed_decode_eq_iff`), and the
words that decode alike share the fields of their layouts. -/
theorem encodeIsABijectionOntoItsImage : Obligations.EncodeIsABijectionOntoItsImage := by
  refine ⟨encode_eq_encode_iff, fun w hw => ?_, fun c d _ => le_idMax_and_decode_eq_iff d,
    decode_eq_decode_iff⟩
  obtain ⟨hp, hf, hs, ha⟩ := decode_inRange w
  refine ⟨_, _, _, _, hp, hf, hs, ha, (packed_decode_eq_iff w).2 hw, ?_⟩
  simp only [BitVec.ofNat_toNat, BitVec.setWidth_eq]

end Sys2Proof.Machine
end

section
/-! PROOFS. Ranges and order: the gates of the other direction, the lexicographic order, and what the
validators say about loss (spec/43_laws.md R76, R78, R81). -/

namespace Sys2Proof.Machine

/-- Settles O35: a packed identifier has the ceiling bits zero, unpacked fields are in range by their
widths, and an operation answers `OK` when its gate passes. -/
theorem rawResultsPassTheOtherGate : Obligations.RawResultsPassTheOtherGate := by
  have hfields (c : Word) := validateFields_pass_iff.2 (decode_inRange c)
  refine ⟨validateCanId_encode, hfields, fun r q hr hq hid => ?_,
    fun r q hr hq hp hf hs ha => ?_⟩
  · rw [respond_enc hr] at hid
    rw [respond_decv hq, hid]
    exact (gate_status rfl).1.2 (validateCanId_encode _ _ _ _)
  · rw [respond_dec hr] at hp hf hs ha
    rw [respond_encv hq, hp, hf, hs, ha]
    exact (gate_status rfl).1.2 (hfields r.canId)

/-- Settles O37: the lanes of valid tuples add up without masking, and each lane's weight exceeds the
largest total of those below it. -/
theorem encodeIsStrictlyIncreasing : Obligations.EncodeIsStrictlyIncreasing := by
  intro p f s a p' f' s' a' hp hf hs ha hp' hf' hs' ha' hlt
  rw [encode_toNat_of_inRange ⟨hp, hf, hs, ha⟩, encode_toNat_of_inRange ⟨hp', hf', hs', ha'⟩]
  obtain hlt | ⟨rfl, hlt | ⟨rfl, hlt | ⟨rfl, hlt⟩⟩⟩ := hlt <;> omega

/-- Settles O38: the words `validateCanId` passes have the ceiling bits zero, so of the five ignored bits
only the unoccupied two can be lost. -/
theorem validatorsAreMaskTests : Obligations.ValidatorsAreMaskTests := by
  refine ⟨fun p f s a => ?_, fun c => ?_, fun p f s a => ?_, fun c hpass => ?_⟩
  · rw [validateFields_pass_iff, inRange_iff_mod, and_prioMask, and_byteMask, and_byteMask, and_byteMask]
  · obtain ⟨t, p, u, f, s, a, rfl⟩ := exists_layout c
    rw [validateCanId_pass_iff, layout_le_idMax_iff, layout_and_idMax_eq_iff,
      layout_and_ceiling_eq_zero_iff]
    exact ⟨Iff.rfl, Iff.rfl⟩
  · obtain ⟨hp, hf, hs, ha⟩ := decode_encode_toNat p f s a
    rw [validateFields_pass_iff, inRange_iff_mod, hp, hf, hs, ha]
  · refine (packed_decode_eq_iff c).trans ?_
    obtain ⟨t, p, u, f, s, a, rfl⟩ := exists_layout c
    rw [validateCanId_pass_iff, layout_le_idMax_iff] at hpass
    rw [layout_and_ignored_eq_zero_iff, layout_and_unoccupied_eq_zero_iff]
    exact and_iff_right hpass

end Sys2Proof.Machine
end

section
/-! PROOFS. Completion and errors (spec/60_exceptions.md): a reserved code answers `BAD_OP` (R89), every
transaction completes (R91), and a response reports at most one error, the first of the priority order
(R93). -/

namespace Sys2Proof.Machine

/-- The reserved codes are those from 6 on (spec/60_exceptions.md R89). -/
theorem six_le_opCode_iff {c : BitVec 3} : 6 ≤ c.toNat ↔ c = 6#3 ∨ c = 7#3 := by
  revert c; decide

/-- Settles O13: `respond` of a reserved code is `raiseBadOp` whatever the operands, both for the code
`exec` drives and for a code presented. -/
theorem reservedCodesAnswerBadOp : Obligations.ReservedCodesAnswerBadOp := by
  refine ⟨fun s => ?_, fun s => ?_, fun s r rest h hop => ?_⟩
  · rw [exec_eq, respond_reserved (.inl rfl)]; rfl
  · rw [exec_eq, respond_reserved (.inr rfl)]; rfl
  · have hrsp : (s.present (.request r) rest).rsp = raiseBadOp :=
      respond_reserved (six_le_opCode_iff.1 hop)
    rw [step_eq_respondWith_rsp h, hrsp]; rfl

/-- Settles O21: `exec_eq` names the next state of every instruction; a step presents an input and adds
one response for it, or has none to present and changes nothing. -/
theorem everyTransactionCompletes : Obligations.EveryTransactionCompletes := by
  refine ⟨fun i s => ⟨_, _, exec_eq i s, rfl, rfl⟩, fun s => ?_⟩
  cases hp : s.program with
  | nil => exact ⟨s, step_nil hp, hp, rfl⟩
  | cons x rest =>
    obtain ⟨t, hstep, hprogram, hlength⟩ := exists_step_cons hp
    refine ⟨t, hstep, hprogram, hlength.trans ?_⟩
    rw [List.length_cons, List.tail_cons, Nat.add_sub_cancel_left]

/-- The field code a check reports (spec/30_encoding.md R50). -/
def Check.errField : Check → BitVec 3
  | .pass => errFieldNone
  | .outOfRange e => e.field.code

@[simp] theorem errField_pass : Check.pass.errField = 0#3 := rfl
@[simp] theorem errField_outOfRange (e : RangeError) :
    (Check.outOfRange e).errField = e.field.code := rfl

/-- A gate reports what its check reports, whatever answer it lets through. -/
theorem gate_errField {k : Check} {a : Answer} (ha : a.response.errField = 0#3) :
    (k.gate a).response.errField = k.errField := by
  cases k with
  | pass => exact ha
  | outOfRange e => rfl

/-- A gate answers `OK` or `OUT_OF_RANGE`, so never `BAD_OP`. -/
theorem gate_status_ne_badOp {k : Check} {a : Answer} (ha : a.response.status = 0#2) :
    (k.gate a).response.status ≠ 2#2 := by
  cases k with
  | pass => rw [gate_pass, ha]; decide
  | outOfRange e => exact (by decide : statusOutOfRange ≠ 2#2)

/-- The cause table of the field errors: an earlier field before a later one
(spec/60_exceptions.md R93). -/
theorem validateFields_errField_iff (p f s a : Nat) :
    ((Codec.validateFields p f s a).errField = 1#3 ↔ 7 < p) ∧
    ((Codec.validateFields p f s a).errField = 2#3 ↔ p ≤ 7 ∧ 255 < f) ∧
    ((Codec.validateFields p f s a).errField = 3#3 ↔ p ≤ 7 ∧ f ≤ 255 ∧ 255 < s) ∧
    ((Codec.validateFields p f s a).errField = 4#3 ↔ p ≤ 7 ∧ f ≤ 255 ∧ s ≤ 255 ∧ 255 < a) ∧
    (Codec.validateFields p f s a).errField ≠ 5#3 := by
  rcases Nat.lt_or_ge 7 p with hp | hp
  · simp [validateFields_of_priority hp, ErrField.error, ErrField.code, hp, hp.not_ge]
  rcases Nat.lt_or_ge 255 f with hf | hf
  · simp [validateFields_of_pduFormat hp hf, ErrField.error, ErrField.code, hp, hf, hf.not_ge]
  rcases Nat.lt_or_ge 255 s with hs | hs
  · simp [validateFields_of_pduSpecific hp hf hs, ErrField.error, ErrField.code, hp, hf, hs, hs.not_ge]
  rcases Nat.lt_or_ge 255 a with ha | ha
  · simp [validateFields_of_sourceAddress hp hf hs ha, ErrField.error, ErrField.code, hp, hf, hs, ha]
  · simp [validateFields_pass_iff.2 ⟨hp, hf, hs, ha⟩, hp, hf, hs, ha]

/-- The identifier's check reports the identifier or nothing (spec/60_exceptions.md R93). -/
theorem validateCanId_errField (c : Word) :
    (Codec.validateCanId c).errField = if 0x1FFFFFFF < c.toNat then 5#3 else 0#3 := by
  rw [validateCanId_eq, apply_ite Check.errField]
  rfl

/-- What each operation reports: the two that check the fields, the two that check the identifier, and
the four that report no field (spec/60_exceptions.md R93). -/
theorem respond_errField_cases (r : Request) :
    ((r.op = 2#3 ∨ r.op = 4#3) ∧
      (respond r).errField = (Codec.validateFields r.priority r.pf r.ps r.sa).errField) ∨
    ((r.op = 3#3 ∨ r.op = 5#3) ∧ (respond r).errField = (Codec.validateCanId r.canId).errField) ∨
    (¬ (r.op = 2#3 ∨ r.op = 4#3) ∧ ¬ (r.op = 3#3 ∨ r.op = 5#3) ∧ (respond r).errField = 0#3) := by
  rcases opCode_cases r.op with h | h | h | h | h | h | h | h
  · exact .inr (.inr ⟨by simp [h], by simp [h], by rw [respond_enc h]; rfl⟩)
  · exact .inr (.inr ⟨by simp [h], by simp [h], by rw [respond_dec h]; rfl⟩)
  · exact .inl ⟨.inl h, by rw [respond_vfields h]; exact gate_errField rfl⟩
  · exact .inr (.inl ⟨.inl h, by rw [respond_vcanid h]; exact gate_errField rfl⟩)
  · exact .inl ⟨.inr h, by rw [respond_encv h]; exact gate_errField rfl⟩
  · exact .inr (.inl ⟨.inr h, by rw [respond_decv h]; exact gate_errField rfl⟩)
  · exact .inr (.inr ⟨by simp [h], by simp [h], by rw [respond_reserved (.inl h)]; rfl⟩)
  · exact .inr (.inr ⟨by simp [h], by simp [h], by rw [respond_reserved (.inr h)]; rfl⟩)

/-- Only the reserved codes answer `BAD_OP` (spec/60_exceptions.md R89). -/
theorem respond_status_badOp_iff (r : Request) :
    (respond r).status = 2#2 ↔ r.op = 6#3 ∨ r.op = 7#3 := by
  refine ⟨fun hstatus => ?_, fun h => by rw [respond_reserved h]; rfl⟩
  rcases opCode_cases r.op with h | h | h | h | h | h | h | h
  · rw [respond_enc h] at hstatus; exact absurd hstatus (by decide : statusOk ≠ 2#2)
  · rw [respond_dec h] at hstatus; exact absurd hstatus (by decide : statusOk ≠ 2#2)
  · rw [respond_vfields h] at hstatus; exact absurd hstatus (gate_status_ne_badOp rfl)
  · rw [respond_vcanid h] at hstatus; exact absurd hstatus (gate_status_ne_badOp rfl)
  · rw [respond_encv h] at hstatus; exact absurd hstatus (gate_status_ne_badOp rfl)
  · rw [respond_decv h] at hstatus; exact absurd hstatus (gate_status_ne_badOp rfl)
  · exact .inl h
  · exact .inr h

/-- A legal response names a field exactly when its status is `OUT_OF_RANGE`
(spec/30_encoding.md R49, R50). -/
theorem legal_status_outOfRange_iff {r : Response} (h : r.legal = true) :
    r.status = 1#2 ↔ r.errField ≠ 0#3 := by
  simp only [Response.legal, Response.noError, Response.rangeError, Bool.or_eq_true,
    Bool.and_eq_true, beq_iff_eq] at h
  obtain (⟨⟨⟨hstatus, ⟨hnone, -⟩, -⟩, -⟩, -⟩ | ⟨⟨hstatus, -, hfield⟩, -⟩) |
    ⟨⟨hstatus, ⟨hnone, -⟩, -⟩, -⟩ := h
  · simp [hstatus, hnone]
  · obtain (⟨hcode, -⟩ | ⟨(hcode | hcode) | hcode, -⟩) | ⟨hcode, -⟩ := hfield <;> simp [hstatus, hcode]
  · simp [hstatus, hnone]

/-- Settles O43: every response is legal, so `OUT_OF_RANGE` comes with a field; an operation reports what
its one check reports, and no operation has both. -/
theorem atMostOneErrorInPriorityOrder : Obligations.AtMostOneErrorInPriorityOrder := by
  intro r
  refine ⟨(respond_status_badOp_iff r).trans six_le_opCode_iff.symm,
    legal_status_outOfRange_iff (legal_respond r), ?_⟩
  obtain ⟨hop, hcode⟩ | ⟨hop, hcode⟩ | ⟨hfields, hid, hcode⟩ := respond_errField_cases r
  · have hid : ¬ (r.op = 3#3 ∨ r.op = 5#3) := by rcases hop with h | h <;> simp [h]
    simpa only [hcode, hop, hid, true_and, false_and, iff_false] using
      validateFields_errField_iff r.priority r.pf r.ps r.sa
  · have hfields : ¬ (r.op = 2#3 ∨ r.op = 4#3) := by rcases hop with h | h <;> simp [h]
    rw [hcode, validateCanId_errField]
    split_ifs with hlt <;> simp [hfields, hop, hlt]
  · simp [hcode, hfields, hid]

end Sys2Proof.Machine
end

section
/-! PROOFS. What a host loses and what it may read (spec/70_reset_and_hazards.md R109 to R112): the raw
operations truncate in silence, decoding and re-encoding a valid identifier clears bits 25 and 24, and the
status says whether the data of a gated operation is a result. -/

namespace Sys2Proof.Machine

/-- A valid identifier is unpacked by `DEC` and by `DECV` alike (spec/42_gated.md R65). -/
theorem respond_of_validCanId {r : Request} (hop : r.op = 1#3 ∨ r.op = 5#3)
    (hid : r.canId.toNat ≤ 0x1FFFFFFF) :
    respond r = (Answer.unpacked (Codec.decode r.canId)).response := by
  obtain hop | hop := hop
  · exact respond_dec hop
  · rw [respond_decv hop, validateCanId_pass_iff.2 hid, gate_pass]

/-- Unpacked fields are packed by `ENC` and by `ENCV` alike (spec/43_laws.md R76). -/
theorem respond_of_decodedFields {r : Request} {c : Word} (hop : r.op = 0#3 ∨ r.op = 4#3)
    (hp : r.priority = (Codec.decode c).priority.toNat) (hf : r.pf = (Codec.decode c).pf.toNat)
    (hs : r.ps = (Codec.decode c).ps.toNat) (ha : r.sa = (Codec.decode c).sa.toNat) :
    respond r = (Answer.packed (Codec.decode c).packed).response := by
  rw [J1939Fields.packed, ← hp, ← hf, ← hs, ← ha]
  obtain hop | hop := hop
  · exact respond_enc hop
  · have hpass := validateFields_pass_iff.2 (decode_inRange c)
    rw [respond_encv hop, hp, hf, hs, ha, hpass, gate_pass]

/-- Settles O40: both answers are the raw ones, and the round trip of a valid identifier loses the
unoccupied bits (`packed_decode` and the mask test of `validatorsAreMaskTests`). -/
theorem reencodingLosesTheUnoccupiedBits : Obligations.ReencodingLosesTheUnoccupiedBits := by
  intro r q hid hdec henc hp hf hs ha
  obtain ⟨-, -, -, hloss⟩ := validatorsAreMaskTests
  have hr := respond_of_validCanId hdec hid
  rw [hr] at hp hf hs ha
  rw [hr, respond_of_decodedFields henc hp hf hs ha]
  exact ⟨rfl, rfl, packed_decode r.canId, not_congr (hloss r.canId (validateCanId_pass_iff.2 hid))⟩

/-- Unpacking does not read the five bits the occupied mask clears (spec/43_laws.md R73). -/
theorem decode_and_occupied (c : Word) : Codec.decode (c &&& 0x1CFFFFFF#32) = Codec.decode c := by
  rw [← packed_decode, decode_packed]

/-- Settles O41: `VFIELDS` rejects exactly the tuples that packing loses (the mask test of
`validatorsAreMaskTests`), and `DEC` does not read the five bits (`decode_and_occupied`). -/
theorem rawOperationsTruncateSilently : Obligations.RawOperationsTruncateSilently := by
  refine ⟨fun r hop => ?_, fun r hop => ?_⟩
  · obtain ⟨-, -, hkept, -⟩ := validatorsAreMaskTests
    obtain ⟨-, hvfields, -⟩ := respond_fieldOperations r
    rw [hvfields, respond_enc hop]
    refine ⟨rfl, ((gate_status rfl).2.trans (not_congr (hkept _ _ _ _))).trans ?_⟩
    simp only [not_and_or, ne_eq, Answer.response]
  · rw [respond_dec hop, respond_dec (r := { r with canId := r.canId &&& 0x1CFFFFFF#32 }) hop,
      decode_and_occupied]
    exact ⟨rfl, rfl⟩

/-- Read status first, a gated answer gives its own identifier when the check passes, else none
(spec/42_gated.md R67). -/
theorem gate_usableIdentifier (k : Check) (c : Word) :
    (k.gate (.packed c)).response.usableIdentifier = if k = .pass then some c else none := by
  cases k with
  | pass => rfl
  | outOfRange e => rfl

/-- Read status first, a gated answer gives its own fields when the check passes, else none
(spec/42_gated.md R67). -/
theorem gate_usableFields (k : Check) (d : J1939Fields) :
    (k.gate (.unpacked d)).response.usableFields = if k = .pass then some d else none := by
  cases k with
  | pass => rfl
  | outOfRange e => rfl

/-- Settles O42: a gated operation answers through its check, which passes exactly the operands in
range. -/
theorem statusFirstReadsOnlyResults : Obligations.StatusFirstReadsOnlyResults := by
  refine ⟨fun r hop => ?_, fun r hop => ?_⟩
  · rw [respond_encv hop, gate_usableIdentifier]
    exact if_congr validateFields_pass_iff rfl rfl
  · rw [respond_decv hop, gate_usableFields]
    exact if_congr validateCanId_pass_iff rfl rfl

end Sys2Proof.Machine
end

section
/-! PROOFS. Words written out from the spec (spec/30_encoding.md R38, R44): a record decodes as the request
it lays out, an identifier word as the bits that separate the three data-format rows say. -/

namespace Sys2Proof

/-- A REQ record that fits decodes to the row of the request it lays out (spec/30_encoding.md R44, R51). -/
theorem decodeRequest_ofRecord {fw : Nat} {n : BitVec (recordWidth fw)} {i : Instr} (r : Request)
    (hfits : r.fits fw = true) (hlayout : n = r.toRecord fw) (hrow : decodeRequest r = i) :
    decodeRequest (.ofRecord fw n) = i := by
  rw [hlayout, ofRecord_toRecord hfits, hrow]

/-- Settles O2: each record lays out the request named here, port by port, and its operation select picks
the row (`decodeRequest_ofRecord`); the identifier words meet the clauses of
`identifierWordsDecodeToTheNarrowestFormat`. -/
theorem writtenOutWordsDecode : Obligations.WrittenOutWordsDecode := by
  refine ⟨decodeRequest_ofRecord ⟨0#3, 6, 0xEA, 0, 0xF9, 0#32⟩ (by decide) (by decide) rfl,
    decodeRequest_ofRecord ⟨1#3, 0, 0, 0, 0, 0x18EA00F9#32⟩ (by decide) (by decide) rfl,
    decodeRequest_ofRecord ⟨2#3, 7, 255, 256, 256, 0#32⟩ (by decide) (by decide) rfl,
    decodeRequest_ofRecord ⟨3#3, 0, 0, 0, 0, 0x1FFFFFFF#32⟩ (by decide) (by decide) rfl,
    decodeRequest_ofRecord ⟨4#3, 0, 0, 300, 300, 0#32⟩ (by decide) (by decide) rfl,
    decodeRequest_ofRecord ⟨5#3, 0, 0, 0, 0, 0x1BEA00F9#32⟩ (by decide) (by decide) rfl,
    decodeRequest_ofRecord ⟨6#3, 0, 0, 0, 0, 0#32⟩ (by decide) (by decide) rfl,
    decodeRequest_ofRecord ⟨7#3, 8, 256, 256, 256, 0xFFFFFFFF#32⟩ (by decide) (by decide) rfl, ?_⟩
  obtain ⟨-, -, himage, -, -⟩ := identifierWordsDecodeToTheNarrowestFormat 0x18EA00F9#32
  obtain ⟨-, -, -, hvalid, -⟩ := identifierWordsDecodeToTheNarrowestFormat 0x1FFFFFFF#32
  obtain ⟨-, -, -, -, haccepts⟩ := identifierWordsDecodeToTheNarrowestFormat 0x20000000#32
  exact ⟨himage.2 (by decide), hvalid.2 (by decide), haccepts.2 (by decide)⟩

end Sys2Proof
end
